-- ==== Sys2Proof/Word.lean ====
section
/-! DEFINITION. The word types of the processor "Registers": what spec/00_scope.md R7 calls a word
(16 bits, arithmetic modulo 65536), a byte, and the 3-bit register field of an instruction word. -/

namespace Sys2Proof

/-- A register value, an address, an ALU result or an instruction word: 16 bits (00_scope.md R7,
10_state.md R20). Addition on it wraps modulo 65536 (20_memory.md R51). -/
abbrev Word := BitVec 16

/-- A byte of data memory (20_memory.md R50). -/
abbrev Byte := BitVec 8

/-- A 3-bit register field as it stands in an instruction word (30_encoding.md R88). Values 0 to 6
name registers; 7 names nothing (10_state.md R22). -/
abbrev RegField := BitVec 3

end Sys2Proof
end

