-- ==== Sys2Proof/Config.lean ====
section
/-! DEFINITION. The parameters of spec/00_scope.md R5: the open ones as plain data that State carries
(`Params`), the launch values of State.reset, the prefix shift, and the free draws, which have no body. -/

namespace Sys2Proof

/-- The two values of the open parameter `BYTE_ORDER` (20_memory.md R54, decision D4). -/
inductive ByteOrder where
  | little
  | big
deriving DecidableEq, Repr

/-- The two values of the open parameter `BR_BASE` (44_branch.md R240, decision D8): an offset
counts from the branch word itself (0) or from the word after it (1). -/
inductive BrBase where
  | branchWord
  | nextWord
deriving DecidableEq, Repr

/-- A block of populated addresses, both ends included. -/
structure AddrRange where
  first : Word
  last : Word
deriving DecidableEq, Repr

/-- The open parameters that a step or a reset reads (00_scope.md R5, kind OPEN). The spec makes them
arguments of the model; they are plain data in State, which no instruction changes, so that a
statement over every state covers every value of them (assumption log 4). -/
structure Params where
  /-- `BYTE_ORDER`, 20_memory.md R54. -/
  byteOrder : ByteOrder
  /-- `BR_BASE`, 44_branch.md R240. -/
  brBase : BrBase
  /-- `DMEM_RANGE`, 20_memory.md R50: the populated data addresses. -/
  dmemRange : List AddrRange
  /-- `PMEM_RANGE`, 20_memory.md R52: the populated program addresses. -/
  pmemRange : List AddrRange
  /-- `RESET_PC`, 10_state.md R38: pc after every reset. -/
  resetPc : Word
  /-- `RESET_SP`, 10_state.md R38: SP after every reset. -/
  resetSp : Word
  /-- `RESET_I`, 10_state.md R38: I after every reset. -/
  resetI : Bool
deriving DecidableEq, Repr

/-- Every 16-bit address: the default of `DMEM_RANGE` and `PMEM_RANGE` (00_scope.md R5). -/
def Config.wholeSpace : List AddrRange := [⟨0x0000, 0xFFFF⟩]

/-- `RESET_PC` (10_state.md R38, open): the vectors' value. DESIGN CHOICE, assumption log 5. -/
def Config.resetPc : Word := 0x0000

/-- `RESET_SP` (10_state.md R38, open): the value programs P2 and P4 of 95_test_vectors.md start
with. DESIGN CHOICE, assumption log 6. -/
def Config.resetSp : Word := 0x1000

/-- `RESET_I` (10_state.md R38, open): the vectors' value. DESIGN CHOICE, assumption log 7. -/
def Config.resetI : Bool := false

/-- The instance that the spec's vectors use (95_test_vectors.md section 0). DESIGN CHOICE for
State.reset, assumption log 1 to 3 and 5 to 7. -/
def Config.vectorParams : Params where
  byteOrder := .little
  brBase := .nextWord
  dmemRange := Config.wholeSpace
  pmemRange := Config.wholeSpace
  resetPc := Config.resetPc
  resetSp := Config.resetSp
  resetI := Config.resetI

/-- `PFIX_SHIFT`, decided 5 over the conflict C1 (40_prefix.md R122, decision D1; assumption
log 21). -/
def Config.pfixShift : Nat := 5

/-- The value the flag C takes at the `n`-th logic instruction of a run: any value (10_state.md
R31, `LOGIC_CV`). No body: nothing can be proved of it (assumption log 12). -/
opaque Config.drawC (n : Nat) : Bool

/-- The value the flag V takes at the `n`-th logic instruction of a run: any value (10_state.md
R31, `LOGIC_CV`). No body: nothing can be proved of it (assumption log 12). -/
opaque Config.drawV (n : Nat) : Bool

/-- The byte that data memory holds at an address nothing has written: any value, fixed for the run
(10_state.md R38, 20_memory.md R58). No body (assumption log 10). -/
opaque Config.launchByte (a : Word) : Byte

/-- The word that program memory holds at an address nothing was loaded to: any value, fixed for the
run; a model must not take it for NOP (42_moves.md R182, 92_eei_decisions.md D28). No body
(assumption log 11). -/
opaque Config.launchWord (a : Word) : Word

end Sys2Proof
end

