-- ==== Sys2Proof/Syntax.lean ====
section
/-! DEFINITION. The syntax: registers, conditions, the pending-prefix record, and one constructor of
`Instr` for every row of spec/opcode_table.json, with the fields of 30_encoding.md R81 to R99. -/

namespace Sys2Proof

/-- The seven general registers (10_state.md R20). SP and PC are not among them: no field names them
(30_encoding.md R88). -/
inductive Reg where
  | r0
  | r1
  | r2
  | r3
  | r4
  | r5
  | r6
deriving DecidableEq, Repr

/-- The eight conditions of 30_encoding.md R94, in the order of their codes 000 to 111. The
pseudo-conditions `ule` and `le` have no encoding (R106). -/
inductive Cond where
  | eq
  | ne
  | uge
  | ult
  | ge
  | lt
  | ugt
  | gt
deriving DecidableEq, Repr

/-- The pending prefix that a prefix word leaves for the next word (10_state.md R33): the zero bit
and the 11-bit immediate. -/
structure Pfx where
  zero : Bool
  imm : BitVec 11
deriving DecidableEq, Repr

/-- The instructions, one constructor for each row of spec/opcode_table.json. Register fields keep the
three bits of the word, since the value 7 is a word the decoder meets and refuses only in order with
the other refusals (60_exceptions.md R285). The five prefixed forms (`movwAr` to `movbRa`) hold their
whole 16-bit address: they are what an I1 load or store word is under a pending `pfixz_k`
(40_prefix.md R126; assumption log 22). -/
inductive Instr where
  /-- `pfix_k`: `pfix K`, 40_prefix.md R120. -/
  | pfixK (pImm : BitVec 11)
  /-- `pfixz_k`: `pfixz K`, 40_prefix.md R121. -/
  | pfixzK (pImm : BitVec 11)
  /-- `lea_mr`: `add Rs, K, Rd`, 41_arith_logic.md R161. -/
  | leaMr (k : BitVec 5) (rs : RegField) (rd : RegField)
  /-- `movw_mr`: `ld.w [Rs, K], Rd`, 43_memory.md R201. -/
  | movwMr (k : BitVec 5) (rs : RegField) (rd : RegField)
  /-- `movzb_mr`: `ld.zb [Rs, K], Rd`, 43_memory.md R202. -/
  | movzbMr (k : BitVec 5) (rs : RegField) (rd : RegField)
  /-- `movsb_mr`: `ld.sb [Rs, K], Rd`, 43_memory.md R203. -/
  | movsbMr (k : BitVec 5) (rs : RegField) (rd : RegField)
  /-- `movw_rm`: `st.w Rd, [Rs, K]`, 43_memory.md R204. -/
  | movwRm (k : BitVec 5) (rs : RegField) (rd : RegField)
  /-- `movb_rm`: `st.b Rd, [Rs, K]`, 43_memory.md R205. -/
  | movbRm (k : BitVec 5) (rs : RegField) (rd : RegField)
  /-- `reserved_i1_110`: Reserved, 45_system.md R267. -/
  | reservedI1x110
  /-- `reserved_i1_111`: Reserved, 45_system.md R267. -/
  | reservedI1x111
  /-- `mov_kr`: `mov K, Rd`, 42_moves.md R180. -/
  | movKr (k : BitVec 8) (rd : RegField)
  /-- `cmp_rk`: `cmp Rd, K`, 41_arith_logic.md R159. -/
  | cmpRk (k : BitVec 8) (rd : RegField)
  /-- `add_kr`: `add Rd, K, Rd`, 41_arith_logic.md R140. -/
  | addKr (k : BitVec 8) (rd : RegField)
  /-- `sub_kr`: `sub Rd, K, Rd`, 41_arith_logic.md R145. -/
  | subKr (k : BitVec 8) (rd : RegField)
  /-- `and_kr`: `and Rd, K, Rd`, 41_arith_logic.md R150. -/
  | andKr (k : BitVec 8) (rd : RegField)
  /-- `or_kr`: `or Rd, K, Rd`, 41_arith_logic.md R152. -/
  | orKr (k : BitVec 8) (rd : RegField)
  /-- `lea_sr`: `add SP, K, Rd`, 41_arith_logic.md R162. -/
  | leaSr (k : BitVec 8) (rd : RegField)
  /-- `movw_sr`: `ld.w [SP, K], Rd`, 43_memory.md R211. -/
  | movwSr (k : BitVec 8) (rd : RegField)
  /-- `movsb_sr`: `ld.sb [SP, K], Rd`, 43_memory.md R212. -/
  | movsbSr (k : BitVec 8) (rd : RegField)
  /-- `movzb_sr`: `ld.zb [SP, K], Rd`, 43_memory.md R213. -/
  | movzbSr (k : BitVec 8) (rd : RegField)
  /-- `movw_rs`: `st.w Rd, [SP, K]`, 43_memory.md R214. -/
  | movwRs (k : BitVec 8) (rd : RegField)
  /-- `movb_rs`: `st.b Rd, [SP, K]`, 43_memory.md R215. -/
  | movbRs (k : BitVec 8) (rd : RegField)
  /-- `br_ck`: `br%cc Label`, 44_branch.md R241. -/
  | brCk (cc : Cond) (a : BitVec 9)
  /-- `jmp_k`: `jmp Label`, 44_branch.md R242. -/
  | jmpK (a : BitVec 9)
  /-- `call_k`: `call Label`, 44_branch.md R244. -/
  | callK (a : BitVec 9)
  /-- `add_rrr`: `add Rs, Rn, Rd`, 41_arith_logic.md R141. -/
  | addRrr (rn : RegField) (rs : RegField) (rd : RegField)
  /-- `adc_rrr`: `addc Rs, Rn, Rd`, 41_arith_logic.md R142. -/
  | adcRrr (rn : RegField) (rs : RegField) (rd : RegField)
  /-- `sub_rrr`: `sub Rs, Rn, Rd`, 41_arith_logic.md R143. -/
  | subRrr (rn : RegField) (rs : RegField) (rd : RegField)
  /-- `subc_rrr`: `subc Rs, Rn, Rd`, 41_arith_logic.md R144. -/
  | subcRrr (rn : RegField) (rs : RegField) (rd : RegField)
  /-- `or_rrr`: `or Rs, Rn, Rd`, 41_arith_logic.md R153. -/
  | orRrr (rn : RegField) (rs : RegField) (rd : RegField)
  /-- `and_rrr`: `and Rs, Rn, Rd`, 41_arith_logic.md R151. -/
  | andRrr (rn : RegField) (rs : RegField) (rd : RegField)
  /-- `xor_rrr`: `xor Rs, Rn, Rd`, 41_arith_logic.md R154. -/
  | xorRrr (rn : RegField) (rs : RegField) (rd : RegField)
  /-- `reserved_r1_0111`: Reserved, 45_system.md R267. -/
  | reservedR1x0111
  /-- `reserved_r1_1000`: Reserved, 45_system.md R267. -/
  | reservedR1x1000
  /-- `movw_nr`: `ld.w [Rs, Rn], Rd`, 43_memory.md R216. -/
  | movwNr (rn : RegField) (rs : RegField) (rd : RegField)
  /-- `movzb_nr`: `ld.zb [Rs, Rn], Rd`, 43_memory.md R217. -/
  | movzbNr (rn : RegField) (rs : RegField) (rd : RegField)
  /-- `movsb_nr`: `ld.sb [Rs, Rn], Rd`, 43_memory.md R218. -/
  | movsbNr (rn : RegField) (rs : RegField) (rd : RegField)
  /-- `movw_rn`: `st.w Rd, [Rs, Rn]`, 43_memory.md R219. -/
  | movwRn (rn : RegField) (rs : RegField) (rd : RegField)
  /-- `movb_rn`: `st.b Rd, [Rs, Rn]`, 43_memory.md R220. -/
  | movbRn (rn : RegField) (rs : RegField) (rd : RegField)
  /-- `sel_crrr`: `sel%cc Rs, Rn, Rd`, 42_moves.md R185. -/
  | selCrrr (cc : Cond) (rn : RegField) (rs : RegField) (rd : RegField)
  /-- `set_cr`: `set%cc Rd`, 42_moves.md R186. -/
  | setCr (cc : Cond) (rd : RegField)
  /-- `mov_rr`: `mov Rs, Rd`, 42_moves.md R181. -/
  | movRr (rs : RegField) (rd : RegField)
  /-- `cmp_rr`: `cmp Rd, Rs`, 41_arith_logic.md R160. -/
  | cmpRr (rs : RegField) (rd : RegField)
  /-- `zext_rr`: `zext Rs, Rd`, 41_arith_logic.md R147. -/
  | zextRr (rs : RegField) (rd : RegField)
  /-- `sext_rr`: `sext Rs, Rd`, 41_arith_logic.md R148. -/
  | sextRr (rs : RegField) (rd : RegField)
  /-- `bswap_rr`: `bswap Rs, Rd`, 42_moves.md R184. -/
  | bswapRr (rs : RegField) (rd : RegField)
  /-- `sextw_rr`: `sextw Rs, Rd`, 41_arith_logic.md R149. -/
  | sextwRr (rs : RegField) (rd : RegField)
  /-- `reserved_r2_110_000`: Reserved, 45_system.md R267. -/
  | reservedR2x110x000
  /-- `movw_pr`: `ld.w {Rs}, Rd`, 43_memory.md R224. -/
  | movwPr (rs : RegField) (rd : RegField)
  /-- `lsr_rr`: `lsr Rs, Rd`, 41_arith_logic.md R157. -/
  | lsrRr (rs : RegField) (rd : RegField)
  /-- `lsl_rr`: `lsl Rs, Rd`, 41_arith_logic.md R158. -/
  | lslRr (rs : RegField) (rd : RegField)
  /-- `asr_rr`: `asr Rs, Rd`, 41_arith_logic.md R156. -/
  | asrRr (rs : RegField) (rd : RegField)
  /-- `reserved_r2_011_001`: Reserved, 45_system.md R267. -/
  | reservedR2x011x001
  /-- `reserved_r2_100_001`: Reserved, 45_system.md R267. -/
  | reservedR2x100x001
  /-- `neg_rr`: `neg Rs, Rd`, 41_arith_logic.md R146. -/
  | negRr (rs : RegField) (rd : RegField)
  /-- `not_rr`: `not Rs, Rd`, 41_arith_logic.md R155. -/
  | notRr (rs : RegField) (rd : RegField)
  /-- `reserved_r2_111_001`: Reserved, 45_system.md R267. -/
  | reservedR2x111x001
  /-- `jmp_r`: `jmp Rd`, 44_branch.md R245. -/
  | jmpR (rd : RegField)
  /-- `call_r`: `call Rd`, 44_branch.md R246. -/
  | callR (rd : RegField)
  /-- `push_r`: `push Rd`, 43_memory.md R221. -/
  | pushR (rd : RegField)
  /-- `pop_r`: `pop Rd`, 43_memory.md R222. -/
  | popR (rd : RegField)
  /-- `reserved_r2_100_100`: Reserved, 45_system.md R267. -/
  | reservedR2x100x100
  /-- `reserved_r2_101_100`: Reserved, 45_system.md R267. -/
  | reservedR2x101x100
  /-- `mov_tr`: `mov SR, Rd` (not implemented), 45_system.md R265. -/
  | movTr (rd : RegField)
  /-- `mov_rt`: `mov Rd, SR` (not implemented), 45_system.md R266. -/
  | movRt (rd : RegField)
  /-- `ret`: `ret`, 44_branch.md R247. -/
  | ret
  /-- `reti`: `reti`, 45_system.md R263. -/
  | reti
  /-- `dint`: `dint`, 45_system.md R262. -/
  | dint
  /-- `eint`: `eint`, 45_system.md R261. -/
  | eint
  /-- `halt`: `halt`, 45_system.md R264. -/
  | halt
  /-- `reserved_r2_101_110`: Reserved, 45_system.md R267. -/
  | reservedR2x101x110
  /-- `reserved_r2_110_110`: Reserved, 45_system.md R267. -/
  | reservedR2x110x110
  /-- `reserved_r2_111_110`: Reserved, 45_system.md R267. -/
  | reservedR2x111x110
  /-- `reserved_r2_xxx_010`: Reserved, 45_system.md R267. -/
  | reservedR2any010
  /-- `reserved_r2_xxx_011`: Reserved, 45_system.md R267. -/
  | reservedR2any011
  /-- `reserved_r2_xxx_101`: Reserved, 45_system.md R267. -/
  | reservedR2any101
  /-- `movw_ar`: `ld.w [&A], Rd`, 43_memory.md R206. -/
  | movwAr (addr : Word) (rd : RegField)
  /-- `movzb_ar`: `ld.zb [&A], Rd`, 43_memory.md R207. -/
  | movzbAr (addr : Word) (rd : RegField)
  /-- `movsb_ar`: `ld.sb [&A], Rd`, 43_memory.md R208. -/
  | movsbAr (addr : Word) (rd : RegField)
  /-- `movw_ra`: `st.w Rd, [&A]`, 43_memory.md R209. -/
  | movwRa (addr : Word) (rd : RegField)
  /-- `movb_ra`: `st.b Rd, [&A]`, 43_memory.md R210. -/
  | movbRa (addr : Word) (rd : RegField)
deriving DecidableEq, Repr

/-- The row of spec/opcode_table.json an instruction stands for, by its mnemonic. -/
def Instr.mnemonic : Instr → String
  | .pfixK _ => "pfix_k"
  | .pfixzK _ => "pfixz_k"
  | .leaMr _ _ _ => "lea_mr"
  | .movwMr _ _ _ => "movw_mr"
  | .movzbMr _ _ _ => "movzb_mr"
  | .movsbMr _ _ _ => "movsb_mr"
  | .movwRm _ _ _ => "movw_rm"
  | .movbRm _ _ _ => "movb_rm"
  | .reservedI1x110 => "reserved_i1_110"
  | .reservedI1x111 => "reserved_i1_111"
  | .movKr _ _ => "mov_kr"
  | .cmpRk _ _ => "cmp_rk"
  | .addKr _ _ => "add_kr"
  | .subKr _ _ => "sub_kr"
  | .andKr _ _ => "and_kr"
  | .orKr _ _ => "or_kr"
  | .leaSr _ _ => "lea_sr"
  | .movwSr _ _ => "movw_sr"
  | .movsbSr _ _ => "movsb_sr"
  | .movzbSr _ _ => "movzb_sr"
  | .movwRs _ _ => "movw_rs"
  | .movbRs _ _ => "movb_rs"
  | .brCk _ _ => "br_ck"
  | .jmpK _ => "jmp_k"
  | .callK _ => "call_k"
  | .addRrr _ _ _ => "add_rrr"
  | .adcRrr _ _ _ => "adc_rrr"
  | .subRrr _ _ _ => "sub_rrr"
  | .subcRrr _ _ _ => "subc_rrr"
  | .orRrr _ _ _ => "or_rrr"
  | .andRrr _ _ _ => "and_rrr"
  | .xorRrr _ _ _ => "xor_rrr"
  | .reservedR1x0111 => "reserved_r1_0111"
  | .reservedR1x1000 => "reserved_r1_1000"
  | .movwNr _ _ _ => "movw_nr"
  | .movzbNr _ _ _ => "movzb_nr"
  | .movsbNr _ _ _ => "movsb_nr"
  | .movwRn _ _ _ => "movw_rn"
  | .movbRn _ _ _ => "movb_rn"
  | .selCrrr _ _ _ _ => "sel_crrr"
  | .setCr _ _ => "set_cr"
  | .movRr _ _ => "mov_rr"
  | .cmpRr _ _ => "cmp_rr"
  | .zextRr _ _ => "zext_rr"
  | .sextRr _ _ => "sext_rr"
  | .bswapRr _ _ => "bswap_rr"
  | .sextwRr _ _ => "sextw_rr"
  | .reservedR2x110x000 => "reserved_r2_110_000"
  | .movwPr _ _ => "movw_pr"
  | .lsrRr _ _ => "lsr_rr"
  | .lslRr _ _ => "lsl_rr"
  | .asrRr _ _ => "asr_rr"
  | .reservedR2x011x001 => "reserved_r2_011_001"
  | .reservedR2x100x001 => "reserved_r2_100_001"
  | .negRr _ _ => "neg_rr"
  | .notRr _ _ => "not_rr"
  | .reservedR2x111x001 => "reserved_r2_111_001"
  | .jmpR _ => "jmp_r"
  | .callR _ => "call_r"
  | .pushR _ => "push_r"
  | .popR _ => "pop_r"
  | .reservedR2x100x100 => "reserved_r2_100_100"
  | .reservedR2x101x100 => "reserved_r2_101_100"
  | .movTr _ => "mov_tr"
  | .movRt _ => "mov_rt"
  | .ret => "ret"
  | .reti => "reti"
  | .dint => "dint"
  | .eint => "eint"
  | .halt => "halt"
  | .reservedR2x101x110 => "reserved_r2_101_110"
  | .reservedR2x110x110 => "reserved_r2_110_110"
  | .reservedR2x111x110 => "reserved_r2_111_110"
  | .reservedR2any010 => "reserved_r2_xxx_010"
  | .reservedR2any011 => "reserved_r2_xxx_011"
  | .reservedR2any101 => "reserved_r2_xxx_101"
  | .movwAr _ _ => "movw_ar"
  | .movzbAr _ _ => "movzb_ar"
  | .movsbAr _ _ => "movsb_ar"
  | .movwRa _ _ => "movw_ra"
  | .movbRa _ _ => "movb_ra"

/-- What an instruction is to the rules on prefixes (40_prefix.md R124, R125, R128): its format, or
that its word alone is refused, or that it is a prefixed form, which holds its prefix already. -/
inductive Format where
  | p
  | i1
  | i2
  | j
  | r1
  | r2
  | prefixedForm
  | notImplemented
  | reserved
deriving DecidableEq, Repr

/-- The format of each instruction (30_encoding.md R81 to R86; `sel_crrr` is R1, `set_cr` is R2). -/
def Instr.format : Instr → Format
  | .pfixK _ => .p
  | .pfixzK _ => .p
  | .leaMr _ _ _ => .i1
  | .movwMr _ _ _ => .i1
  | .movzbMr _ _ _ => .i1
  | .movsbMr _ _ _ => .i1
  | .movwRm _ _ _ => .i1
  | .movbRm _ _ _ => .i1
  | .reservedI1x110 => .reserved
  | .reservedI1x111 => .reserved
  | .movKr _ _ => .i2
  | .cmpRk _ _ => .i2
  | .addKr _ _ => .i2
  | .subKr _ _ => .i2
  | .andKr _ _ => .i2
  | .orKr _ _ => .i2
  | .leaSr _ _ => .i2
  | .movwSr _ _ => .i2
  | .movsbSr _ _ => .i2
  | .movzbSr _ _ => .i2
  | .movwRs _ _ => .i2
  | .movbRs _ _ => .i2
  | .brCk _ _ => .j
  | .jmpK _ => .j
  | .callK _ => .j
  | .addRrr _ _ _ => .r1
  | .adcRrr _ _ _ => .r1
  | .subRrr _ _ _ => .r1
  | .subcRrr _ _ _ => .r1
  | .orRrr _ _ _ => .r1
  | .andRrr _ _ _ => .r1
  | .xorRrr _ _ _ => .r1
  | .reservedR1x0111 => .reserved
  | .reservedR1x1000 => .reserved
  | .movwNr _ _ _ => .r1
  | .movzbNr _ _ _ => .r1
  | .movsbNr _ _ _ => .r1
  | .movwRn _ _ _ => .r1
  | .movbRn _ _ _ => .r1
  | .selCrrr _ _ _ _ => .r1
  | .setCr _ _ => .r2
  | .movRr _ _ => .r2
  | .cmpRr _ _ => .r2
  | .zextRr _ _ => .r2
  | .sextRr _ _ => .r2
  | .bswapRr _ _ => .r2
  | .sextwRr _ _ => .r2
  | .reservedR2x110x000 => .reserved
  | .movwPr _ _ => .r2
  | .lsrRr _ _ => .r2
  | .lslRr _ _ => .r2
  | .asrRr _ _ => .r2
  | .reservedR2x011x001 => .reserved
  | .reservedR2x100x001 => .reserved
  | .negRr _ _ => .r2
  | .notRr _ _ => .r2
  | .reservedR2x111x001 => .reserved
  | .jmpR _ => .r2
  | .callR _ => .r2
  | .pushR _ => .r2
  | .popR _ => .r2
  | .reservedR2x100x100 => .reserved
  | .reservedR2x101x100 => .reserved
  | .movTr _ => .notImplemented
  | .movRt _ => .notImplemented
  | .ret => .r2
  | .reti => .r2
  | .dint => .r2
  | .eint => .r2
  | .halt => .r2
  | .reservedR2x101x110 => .reserved
  | .reservedR2x110x110 => .reserved
  | .reservedR2x111x110 => .reserved
  | .reservedR2any010 => .reserved
  | .reservedR2any011 => .reserved
  | .reservedR2any101 => .reserved
  | .movwAr _ _ => .prefixedForm
  | .movzbAr _ _ => .prefixedForm
  | .movsbAr _ _ => .prefixedForm
  | .movwRa _ _ => .prefixedForm
  | .movbRa _ _ => .prefixedForm

end Sys2Proof
end

