-- ==== Sys2Proof/WellFormed.lean ====
section
/-! DEFINITION. Well-formedness of an instruction: the register fields it uses name registers
(10_state.md R22, 30_encoding.md R88), and which pending prefixes it may run under (40_prefix.md
R124, R125, R128). -/

namespace Sys2Proof

/-- A register field names a register: it is not 7 (10_state.md R22). -/
def RegField.named (f : RegField) : Bool := f != 7

/-- The Rs field, unless a zeroing prefix makes it read as zero, when it is not used (40_prefix.md
R125). -/
def rsUnless (zeroed : Bool) (rs : RegField) : List RegField := if zeroed then [] else [rs]

/-- The register fields an instruction uses, in the order Rs, Rn, Rd of 60_exceptions.md R285;
`zeroed` says that a pending `pfixz_k` replaces the Rs operand of a format I1 or R1 instruction. -/
def Instr.usedFields (zeroed : Bool) : Instr → List RegField
  | .pfixK _ => []
  | .pfixzK _ => []
  | .leaMr _ rs rd => rsUnless zeroed rs ++ [rd]
  | .movwMr _ rs rd => rsUnless zeroed rs ++ [rd]
  | .movzbMr _ rs rd => rsUnless zeroed rs ++ [rd]
  | .movsbMr _ rs rd => rsUnless zeroed rs ++ [rd]
  | .movwRm _ rs rd => rsUnless zeroed rs ++ [rd]
  | .movbRm _ rs rd => rsUnless zeroed rs ++ [rd]
  | .reservedI1x110 => []
  | .reservedI1x111 => []
  | .movKr _ rd => [rd]
  | .cmpRk _ rd => [rd]
  | .addKr _ rd => [rd]
  | .subKr _ rd => [rd]
  | .andKr _ rd => [rd]
  | .orKr _ rd => [rd]
  | .leaSr _ rd => [rd]
  | .movwSr _ rd => [rd]
  | .movsbSr _ rd => [rd]
  | .movzbSr _ rd => [rd]
  | .movwRs _ rd => [rd]
  | .movbRs _ rd => [rd]
  | .brCk _ _ => []
  | .jmpK _ => []
  | .callK _ => []
  | .addRrr rn rs rd => rsUnless zeroed rs ++ [rn, rd]
  | .adcRrr rn rs rd => rsUnless zeroed rs ++ [rn, rd]
  | .subRrr rn rs rd => rsUnless zeroed rs ++ [rn, rd]
  | .subcRrr rn rs rd => rsUnless zeroed rs ++ [rn, rd]
  | .orRrr rn rs rd => rsUnless zeroed rs ++ [rn, rd]
  | .andRrr rn rs rd => rsUnless zeroed rs ++ [rn, rd]
  | .xorRrr rn rs rd => rsUnless zeroed rs ++ [rn, rd]
  | .reservedR1x0111 => []
  | .reservedR1x1000 => []
  | .movwNr rn rs rd => rsUnless zeroed rs ++ [rn, rd]
  | .movzbNr rn rs rd => rsUnless zeroed rs ++ [rn, rd]
  | .movsbNr rn rs rd => rsUnless zeroed rs ++ [rn, rd]
  | .movwRn rn rs rd => rsUnless zeroed rs ++ [rn, rd]
  | .movbRn rn rs rd => rsUnless zeroed rs ++ [rn, rd]
  | .selCrrr _ rn rs rd => rsUnless zeroed rs ++ [rn, rd]
  | .setCr _ rd => [rd]
  | .movRr rs rd => [rs, rd]
  | .cmpRr rs rd => [rs, rd]
  | .zextRr rs rd => [rs, rd]
  | .sextRr rs rd => [rs, rd]
  | .bswapRr rs rd => [rs, rd]
  | .sextwRr rs rd => [rs, rd]
  | .reservedR2x110x000 => []
  | .movwPr rs rd => [rs, rd]
  | .lsrRr rs rd => [rs, rd]
  | .lslRr rs rd => [rs, rd]
  | .asrRr rs rd => [rs, rd]
  | .reservedR2x011x001 => []
  | .reservedR2x100x001 => []
  | .negRr rs rd => [rs, rd]
  | .notRr rs rd => [rs, rd]
  | .reservedR2x111x001 => []
  | .jmpR rd => [rd]
  | .callR rd => [rd]
  | .pushR rd => [rd]
  | .popR rd => [rd]
  | .reservedR2x100x100 => []
  | .reservedR2x101x100 => []
  | .movTr rd => [rd]
  | .movRt rd => [rd]
  | .ret => []
  | .reti => []
  | .dint => []
  | .eint => []
  | .halt => []
  | .reservedR2x101x110 => []
  | .reservedR2x110x110 => []
  | .reservedR2x111x110 => []
  | .reservedR2any010 => []
  | .reservedR2any011 => []
  | .reservedR2any101 => []
  | .movwAr _ rd => [rd]
  | .movzbAr _ rd => [rd]
  | .movsbAr _ rd => [rd]
  | .movwRa _ rd => [rd]
  | .movbRa _ rd => [rd]

/-- An instruction is well-formed when every register field it uses names a register. -/
def Instr.wellFormed (i : Instr) : Bool := (i.usedFields false).all RegField.named

/-- The pending prefixes a format has a documented form under: none always; `pfix_k` for I1, I2 and J
(40_prefix.md R124); `pfixz_k` for I1 and R1 (R125). A prefixed form is the core word under its
pending `pfixz_k` and brings it with it. A format P word runs only with no prefix pending (R128). -/
def Format.runsUnder : Format → Option Pfx → Bool
  | _, none => true
  | .i1, some _ => true
  | .i2, some q => !q.zero
  | .j, some q => !q.zero
  | .r1, some q => q.zero
  | .prefixedForm, some _ => true
  | .p, some _ => false
  | .r2, some _ => false
  | .notImplemented, some _ => false
  | .reserved, some _ => false

/-- An instruction has a documented form under the pending prefix (40_prefix.md R124, R125, R128). -/
def Instr.runsUnder (i : Instr) (pfx : Option Pfx) : Bool := i.format.runsUnder pfx

end Sys2Proof
end

