-- ==== Sys2Proof/Decode.lean ====
section
/-! DEFINITION. The decoder, total on every 16-bit word under every pending prefix, along the tree of
30_encoding.md R87, and the encoder from the same tables (R96 to R99). A word that no instruction
owns decodes to the Reserved row it falls in, by name (R100), so nothing is left over. -/

namespace Sys2Proof

/-- The condition a 3-bit code names (30_encoding.md R94). -/
def Cond.ofCode (c : BitVec 3) : Cond :=
  match c.toNat with
  | 0 => .eq
  | 1 => .ne
  | 2 => .uge
  | 3 => .ult
  | 4 => .ge
  | 5 => .lt
  | 6 => .ugt
  | _ => .gt

/-- The 3-bit code of a condition (30_encoding.md R94). -/
def Cond.code : Cond → BitVec 3
  | .eq => 0b000
  | .ne => 0b001
  | .uge => 0b010
  | .ult => 0b011
  | .ge => 0b100
  | .lt => 0b101
  | .ugt => 0b110
  | .gt => 0b111

/-- The 16-bit immediate that a pending prefix and the core field make: `(p_imm << 5) | (field &
0b11111)` (40_prefix.md R122). -/
def imm16 (pImm : BitVec 11) (field : Word) : Word :=
  (pImm.setWidth 16 <<< Config.pfixShift) ||| (field &&& ((1#16 <<< Config.pfixShift) - 1))

/-- Rd, bits 2:0 (30_encoding.md R88). -/
def rdOf (w : Word) : RegField := w.extractLsb' 0 3

/-- Rs, bits 5:3 (30_encoding.md R88). -/
def rsOf (w : Word) : RegField := w.extractLsb' 3 3

/-- Rn, bits 8:6 (30_encoding.md R88). -/
def rnOf (w : Word) : RegField := w.extractLsb' 6 3

/-- The condition field of `br`, `sel` and `set`, bits 11:9 (30_encoding.md R84 to R86). -/
def ccOf (w : Word) : Cond := Cond.ofCode (w.extractLsb' 9 3)

/-- The I1 immediate, bits 10:6 (30_encoding.md R82). -/
def k5Of (w : Word) : BitVec 5 := w.extractLsb' 6 5

/-- The I2 immediate, bits 10:3 (30_encoding.md R83). -/
def k8Of (w : Word) : BitVec 8 := w.extractLsb' 3 8

/-- The J address field, bits 8:0 (30_encoding.md R84). -/
def a9Of (w : Word) : BitVec 9 := w.extractLsb' 0 9

/-- Format P (30_encoding.md R81): bit 11 is the zero bit. -/
def decodeP (w : Word) : Instr :=
  match w.extractLsb' 11 1 with
  | 0b0#1 => .pfixK (w.extractLsb' 0 11)
  | _ => .pfixzK (w.extractLsb' 0 11)

/-- Format I1 (30_encoding.md R96), by bits 13:11. -/
def decodeI1 (w : Word) : Instr :=
  match w.extractLsb' 11 3 with
  | 0b000#3 => .leaMr (k5Of w) (rsOf w) (rdOf w)
  | 0b001#3 => .movwMr (k5Of w) (rsOf w) (rdOf w)
  | 0b010#3 => .movzbMr (k5Of w) (rsOf w) (rdOf w)
  | 0b011#3 => .movsbMr (k5Of w) (rsOf w) (rdOf w)
  | 0b100#3 => .movwRm (k5Of w) (rsOf w) (rdOf w)
  | 0b101#3 => .movbRm (k5Of w) (rsOf w) (rdOf w)
  | 0b110#3 => .reservedI1x110
  | _ => .reservedI1x111

/-- Format I1 under a pending `pfixz_k` with immediate `pImm`: the loads and stores are the
absolute-address forms of 40_prefix.md R126, whose address is `imm16`; `lea_mr` has no name of its own
there and stays `lea_mr`; Reserved words stay Reserved. -/
def decodeAbsolute (pImm : BitVec 11) (w : Word) : Instr :=
  match w.extractLsb' 11 3 with
  | 0b001#3 => .movwAr (imm16 pImm ((k5Of w).setWidth 16)) (rdOf w)
  | 0b010#3 => .movzbAr (imm16 pImm ((k5Of w).setWidth 16)) (rdOf w)
  | 0b011#3 => .movsbAr (imm16 pImm ((k5Of w).setWidth 16)) (rdOf w)
  | 0b100#3 => .movwRa (imm16 pImm ((k5Of w).setWidth 16)) (rdOf w)
  | 0b101#3 => .movbRa (imm16 pImm ((k5Of w).setWidth 16)) (rdOf w)
  | _ => decodeI1 w

/-- Format I2 (30_encoding.md R97), by bits 15:11 from 10000 to 11011. -/
def decodeI2 (w : Word) : Instr :=
  match w.extractLsb' 11 5 with
  | 0b10000#5 => .movKr (k8Of w) (rdOf w)
  | 0b10001#5 => .cmpRk (k8Of w) (rdOf w)
  | 0b10010#5 => .addKr (k8Of w) (rdOf w)
  | 0b10011#5 => .subKr (k8Of w) (rdOf w)
  | 0b10100#5 => .andKr (k8Of w) (rdOf w)
  | 0b10101#5 => .orKr (k8Of w) (rdOf w)
  | 0b10110#5 => .leaSr (k8Of w) (rdOf w)
  | 0b10111#5 => .movwSr (k8Of w) (rdOf w)
  | 0b11000#5 => .movsbSr (k8Of w) (rdOf w)
  | 0b11001#5 => .movzbSr (k8Of w) (rdOf w)
  | 0b11010#5 => .movwRs (k8Of w) (rdOf w)
  | _ => .movbRs (k8Of w) (rdOf w)

/-- Formats R1 and J under the top bits 001 (30_encoding.md R98, R84), by bits 12:9: the values 1110
and 1111 are the words of `jmp_k` and `call_k` (R101). -/
def decodeR1 (w : Word) : Instr :=
  match w.extractLsb' 9 4 with
  | 0b0000#4 => .addRrr (rnOf w) (rsOf w) (rdOf w)
  | 0b0001#4 => .adcRrr (rnOf w) (rsOf w) (rdOf w)
  | 0b0010#4 => .subRrr (rnOf w) (rsOf w) (rdOf w)
  | 0b0011#4 => .subcRrr (rnOf w) (rsOf w) (rdOf w)
  | 0b0100#4 => .orRrr (rnOf w) (rsOf w) (rdOf w)
  | 0b0101#4 => .andRrr (rnOf w) (rsOf w) (rdOf w)
  | 0b0110#4 => .xorRrr (rnOf w) (rsOf w) (rdOf w)
  | 0b0111#4 => .reservedR1x0111
  | 0b1000#4 => .reservedR1x1000
  | 0b1001#4 => .movwNr (rnOf w) (rsOf w) (rdOf w)
  | 0b1010#4 => .movzbNr (rnOf w) (rsOf w) (rdOf w)
  | 0b1011#4 => .movsbNr (rnOf w) (rsOf w) (rdOf w)
  | 0b1100#4 => .movwRn (rnOf w) (rsOf w) (rdOf w)
  | 0b1101#4 => .movbRn (rnOf w) (rsOf w) (rdOf w)
  | 0b1110#4 => .jmpK (a9Of w)
  | _ => .callK (a9Of w)

/-- Format R2 with opB = 000 (30_encoding.md R99), by opA, bits 11:9. -/
def decodeR2opB0 (w : Word) : Instr :=
  match w.extractLsb' 9 3 with
  | 0b000#3 => .movRr (rsOf w) (rdOf w)
  | 0b001#3 => .cmpRr (rsOf w) (rdOf w)
  | 0b010#3 => .zextRr (rsOf w) (rdOf w)
  | 0b011#3 => .sextRr (rsOf w) (rdOf w)
  | 0b100#3 => .bswapRr (rsOf w) (rdOf w)
  | 0b101#3 => .sextwRr (rsOf w) (rdOf w)
  | 0b110#3 => .reservedR2x110x000
  | _ => .movwPr (rsOf w) (rdOf w)

/-- Format R2 with opB = 001 (30_encoding.md R99), by opA, bits 11:9. -/
def decodeR2opB1 (w : Word) : Instr :=
  match w.extractLsb' 9 3 with
  | 0b000#3 => .lsrRr (rsOf w) (rdOf w)
  | 0b001#3 => .lslRr (rsOf w) (rdOf w)
  | 0b010#3 => .asrRr (rsOf w) (rdOf w)
  | 0b011#3 => .reservedR2x011x001
  | 0b100#3 => .reservedR2x100x001
  | 0b101#3 => .negRr (rsOf w) (rdOf w)
  | 0b110#3 => .notRr (rsOf w) (rdOf w)
  | _ => .reservedR2x111x001

/-- Format R2 with opB = 100 (30_encoding.md R99), by opA, bits 11:9. -/
def decodeR2opB4 (w : Word) : Instr :=
  match w.extractLsb' 9 3 with
  | 0b000#3 => .jmpR (rdOf w)
  | 0b001#3 => .callR (rdOf w)
  | 0b010#3 => .pushR (rdOf w)
  | 0b011#3 => .popR (rdOf w)
  | 0b100#3 => .reservedR2x100x100
  | 0b101#3 => .reservedR2x101x100
  | 0b110#3 => .movTr (rdOf w)
  | _ => .movRt (rdOf w)

/-- Format R2 with opB = 110 (30_encoding.md R99), by opA, bits 11:9. -/
def decodeR2opB6 (w : Word) : Instr :=
  match w.extractLsb' 9 3 with
  | 0b000#3 => .ret
  | 0b001#3 => .reti
  | 0b010#3 => .dint
  | 0b011#3 => .eint
  | 0b100#3 => .halt
  | 0b101#3 => .reservedR2x101x110
  | 0b110#3 => .reservedR2x110x110
  | _ => .reservedR2x111x110

/-- Format R2 (30_encoding.md R86, R99), by opB, bits 8:6; opB = 111 is `set_cr`. -/
def decodeR2 (w : Word) : Instr :=
  match w.extractLsb' 6 3 with
  | 0b000#3 => decodeR2opB0 w
  | 0b001#3 => decodeR2opB1 w
  | 0b010#3 => .reservedR2any010
  | 0b011#3 => .reservedR2any011
  | 0b100#3 => decodeR2opB4 w
  | 0b101#3 => .reservedR2any101
  | 0b110#3 => decodeR2opB6 w
  | _ => .setCr (ccOf w) (rdOf w)

/-- The instruction of a word when no zeroing prefix is pending: the decode tree of 30_encoding.md
R87 on bits 15:12. -/
def decodePlain (w : Word) : Instr :=
  match w.extractLsb' 12 4 with
  | 0b0000#4 => decodeR2 w
  | 0b0001#4 => .selCrrr (ccOf w) (rnOf w) (rsOf w) (rdOf w)
  | 0b0010#4 | 0b0011#4 => decodeR1 w
  | 0b0100#4 | 0b0101#4 | 0b0110#4 | 0b0111#4 => decodeI1 w
  | 0b1110#4 => .brCk (ccOf w) (a9Of w)
  | 0b1111#4 => decodeP w
  | _ => decodeI2 w

/-- The instruction a word is, given the pending prefix. Only a pending `pfixz_k` before a word of
format I1 (bits 15:14 = 01) changes the name: such a pair is a prefixed form (40_prefix.md R126,
30_encoding.md R105 (e)). -/
def decode (pfx : Option Pfx) (w : Word) : Instr :=
  match pfx with
  | some ⟨true, pImm⟩ => if w.extractLsb' 14 2 = 0b01#2 then decodeAbsolute pImm w else decodePlain w
  | _ => decodePlain w

/-- The prefix that is pending after a word has decoded to `i`: what `i` leaves when it is a prefix
word, else none (40_prefix.md R123). -/
def Instr.leavesPfx : Instr → Option Pfx
  | .pfixK pImm => some ⟨false, pImm⟩
  | .pfixzK pImm => some ⟨true, pImm⟩
  | _ => none

/-- Decoding of consecutive words, each under the prefix the one before it left (30_encoding.md R107:
every fetch is one word). -/
def decodeWords (pfx : Option Pfx) : List Word → List Instr
  | [] => []
  | w :: ws => decode pfx w :: decodeWords (decode pfx w).leavesPfx ws

/-- The two words of a prefixed form: the `pfixz_k` word with A[15:5], and the I1 core word with
opcode `op`, A[4:0] in K, Rs = 000 and Rd (40_prefix.md R126). -/
def encodeAbsolute (op : BitVec 5) (addr : Word) (rd : RegField) : List Word :=
  [0b11111#5 ++ addr.extractLsb' 5 11, op ++ addr.extractLsb' 0 5 ++ 0b000#3 ++ rd]

/-- The words of an instruction (30_encoding.md R81 to R99): one word, two for a prefixed form.
Don't-care bits are written as zeros (R93). -/
def encode : Instr → List Word
  | .pfixK pImm => [0b11110#5 ++ pImm]
  | .pfixzK pImm => [0b11111#5 ++ pImm]
  | .leaMr k rs rd => [0b01000#5 ++ k ++ rs ++ rd]
  | .movwMr k rs rd => [0b01001#5 ++ k ++ rs ++ rd]
  | .movzbMr k rs rd => [0b01010#5 ++ k ++ rs ++ rd]
  | .movsbMr k rs rd => [0b01011#5 ++ k ++ rs ++ rd]
  | .movwRm k rs rd => [0b01100#5 ++ k ++ rs ++ rd]
  | .movbRm k rs rd => [0b01101#5 ++ k ++ rs ++ rd]
  | .reservedI1x110 => [0x7000]
  | .reservedI1x111 => [0x7800]
  | .movKr k rd => [0b10000#5 ++ k ++ rd]
  | .cmpRk k rd => [0b10001#5 ++ k ++ rd]
  | .addKr k rd => [0b10010#5 ++ k ++ rd]
  | .subKr k rd => [0b10011#5 ++ k ++ rd]
  | .andKr k rd => [0b10100#5 ++ k ++ rd]
  | .orKr k rd => [0b10101#5 ++ k ++ rd]
  | .leaSr k rd => [0b10110#5 ++ k ++ rd]
  | .movwSr k rd => [0b10111#5 ++ k ++ rd]
  | .movsbSr k rd => [0b11000#5 ++ k ++ rd]
  | .movzbSr k rd => [0b11001#5 ++ k ++ rd]
  | .movwRs k rd => [0b11010#5 ++ k ++ rd]
  | .movbRs k rd => [0b11011#5 ++ k ++ rd]
  | .brCk cc a => [0b1110#4 ++ cc.code ++ a]
  | .jmpK a => [0b0011110#7 ++ a]
  | .callK a => [0b0011111#7 ++ a]
  | .addRrr rn rs rd => [0b0010000#7 ++ rn ++ rs ++ rd]
  | .adcRrr rn rs rd => [0b0010001#7 ++ rn ++ rs ++ rd]
  | .subRrr rn rs rd => [0b0010010#7 ++ rn ++ rs ++ rd]
  | .subcRrr rn rs rd => [0b0010011#7 ++ rn ++ rs ++ rd]
  | .orRrr rn rs rd => [0b0010100#7 ++ rn ++ rs ++ rd]
  | .andRrr rn rs rd => [0b0010101#7 ++ rn ++ rs ++ rd]
  | .xorRrr rn rs rd => [0b0010110#7 ++ rn ++ rs ++ rd]
  | .reservedR1x0111 => [0x2E00]
  | .reservedR1x1000 => [0x3000]
  | .movwNr rn rs rd => [0b0011001#7 ++ rn ++ rs ++ rd]
  | .movzbNr rn rs rd => [0b0011010#7 ++ rn ++ rs ++ rd]
  | .movsbNr rn rs rd => [0b0011011#7 ++ rn ++ rs ++ rd]
  | .movwRn rn rs rd => [0b0011100#7 ++ rn ++ rs ++ rd]
  | .movbRn rn rs rd => [0b0011101#7 ++ rn ++ rs ++ rd]
  | .selCrrr cc rn rs rd => [0b0001#4 ++ cc.code ++ rn ++ rs ++ rd]
  | .setCr cc rd => [0b0000#4 ++ cc.code ++ 0b111#3 ++ 0b000#3 ++ rd]
  | .movRr rs rd => [0b0000000000#10 ++ rs ++ rd]
  | .cmpRr rs rd => [0b0000001000#10 ++ rs ++ rd]
  | .zextRr rs rd => [0b0000010000#10 ++ rs ++ rd]
  | .sextRr rs rd => [0b0000011000#10 ++ rs ++ rd]
  | .bswapRr rs rd => [0b0000100000#10 ++ rs ++ rd]
  | .sextwRr rs rd => [0b0000101000#10 ++ rs ++ rd]
  | .reservedR2x110x000 => [0x0C00]
  | .movwPr rs rd => [0b0000111000#10 ++ rs ++ rd]
  | .lsrRr rs rd => [0b0000000001#10 ++ rs ++ rd]
  | .lslRr rs rd => [0b0000001001#10 ++ rs ++ rd]
  | .asrRr rs rd => [0b0000010001#10 ++ rs ++ rd]
  | .reservedR2x011x001 => [0x0640]
  | .reservedR2x100x001 => [0x0840]
  | .negRr rs rd => [0b0000101001#10 ++ rs ++ rd]
  | .notRr rs rd => [0b0000110001#10 ++ rs ++ rd]
  | .reservedR2x111x001 => [0x0E40]
  | .jmpR rd => [0b0000000100#10 ++ 0b000#3 ++ rd]
  | .callR rd => [0b0000001100#10 ++ 0b000#3 ++ rd]
  | .pushR rd => [0b0000010100#10 ++ 0b000#3 ++ rd]
  | .popR rd => [0b0000011100#10 ++ 0b000#3 ++ rd]
  | .reservedR2x100x100 => [0x0900]
  | .reservedR2x101x100 => [0x0B00]
  | .movTr rd => [0b0000110100#10 ++ 0b000#3 ++ rd]
  | .movRt rd => [0b0000111100#10 ++ 0b000#3 ++ rd]
  | .ret => [0x0180]
  | .reti => [0x0380]
  | .dint => [0x0580]
  | .eint => [0x0780]
  | .halt => [0x0980]
  | .reservedR2x101x110 => [0x0B80]
  | .reservedR2x110x110 => [0x0D80]
  | .reservedR2x111x110 => [0x0F80]
  | .reservedR2any010 => [0x0080]
  | .reservedR2any011 => [0x00C0]
  | .reservedR2any101 => [0x0140]
  | .movwAr addr rd => encodeAbsolute 0b01001 addr rd
  | .movzbAr addr rd => encodeAbsolute 0b01010 addr rd
  | .movsbAr addr rd => encodeAbsolute 0b01011 addr rd
  | .movwRa addr rd => encodeAbsolute 0b01100 addr rd
  | .movbRa addr rd => encodeAbsolute 0b01101 addr rd

/-- A row of spec/opcode_table.json: a word is the row's when `word &&& mask = fit` (30_encoding.md,
opening). -/
structure OpcodeRow where
  name : String
  fit : Word
  mask : Word
deriving DecidableEq, Repr

/-- The 76 rows of spec/opcode_table.json that partition the 65536 words (30_encoding.md, opening, and
R95): every row but the five prefixed forms, which repeat the words of their core instructions. -/
def opcodeRows : List OpcodeRow :=
  [⟨"pfix_k", 0xF000, 0xF800⟩,
   ⟨"pfixz_k", 0xF800, 0xF800⟩,
   ⟨"lea_mr", 0x4000, 0xF800⟩,
   ⟨"movw_mr", 0x4800, 0xF800⟩,
   ⟨"movzb_mr", 0x5000, 0xF800⟩,
   ⟨"movsb_mr", 0x5800, 0xF800⟩,
   ⟨"movw_rm", 0x6000, 0xF800⟩,
   ⟨"movb_rm", 0x6800, 0xF800⟩,
   ⟨"reserved_i1_110", 0x7000, 0xF800⟩,
   ⟨"reserved_i1_111", 0x7800, 0xF800⟩,
   ⟨"mov_kr", 0x8000, 0xF800⟩,
   ⟨"cmp_rk", 0x8800, 0xF800⟩,
   ⟨"add_kr", 0x9000, 0xF800⟩,
   ⟨"sub_kr", 0x9800, 0xF800⟩,
   ⟨"and_kr", 0xA000, 0xF800⟩,
   ⟨"or_kr", 0xA800, 0xF800⟩,
   ⟨"lea_sr", 0xB000, 0xF800⟩,
   ⟨"movw_sr", 0xB800, 0xF800⟩,
   ⟨"movsb_sr", 0xC000, 0xF800⟩] ++
  [⟨"movzb_sr", 0xC800, 0xF800⟩,
   ⟨"movw_rs", 0xD000, 0xF800⟩,
   ⟨"movb_rs", 0xD800, 0xF800⟩,
   ⟨"br_ck", 0xE000, 0xF000⟩,
   ⟨"jmp_k", 0x3C00, 0xFE00⟩,
   ⟨"call_k", 0x3E00, 0xFE00⟩,
   ⟨"add_rrr", 0x2000, 0xFE00⟩,
   ⟨"adc_rrr", 0x2200, 0xFE00⟩,
   ⟨"sub_rrr", 0x2400, 0xFE00⟩,
   ⟨"subc_rrr", 0x2600, 0xFE00⟩,
   ⟨"or_rrr", 0x2800, 0xFE00⟩,
   ⟨"and_rrr", 0x2A00, 0xFE00⟩,
   ⟨"xor_rrr", 0x2C00, 0xFE00⟩,
   ⟨"reserved_r1_0111", 0x2E00, 0xFE00⟩,
   ⟨"reserved_r1_1000", 0x3000, 0xFE00⟩,
   ⟨"movw_nr", 0x3200, 0xFE00⟩,
   ⟨"movzb_nr", 0x3400, 0xFE00⟩,
   ⟨"movsb_nr", 0x3600, 0xFE00⟩,
   ⟨"movw_rn", 0x3800, 0xFE00⟩] ++
  [⟨"movb_rn", 0x3A00, 0xFE00⟩,
   ⟨"sel_crrr", 0x1000, 0xF000⟩,
   ⟨"set_cr", 0x01C0, 0xF1C0⟩,
   ⟨"mov_rr", 0x0000, 0xFFC0⟩,
   ⟨"cmp_rr", 0x0200, 0xFFC0⟩,
   ⟨"zext_rr", 0x0400, 0xFFC0⟩,
   ⟨"sext_rr", 0x0600, 0xFFC0⟩,
   ⟨"bswap_rr", 0x0800, 0xFFC0⟩,
   ⟨"sextw_rr", 0x0A00, 0xFFC0⟩,
   ⟨"reserved_r2_110_000", 0x0C00, 0xFFC0⟩,
   ⟨"movw_pr", 0x0E00, 0xFFC0⟩,
   ⟨"lsr_rr", 0x0040, 0xFFC0⟩,
   ⟨"lsl_rr", 0x0240, 0xFFC0⟩,
   ⟨"asr_rr", 0x0440, 0xFFC0⟩,
   ⟨"reserved_r2_011_001", 0x0640, 0xFFC0⟩,
   ⟨"reserved_r2_100_001", 0x0840, 0xFFC0⟩,
   ⟨"neg_rr", 0x0A40, 0xFFC0⟩,
   ⟨"not_rr", 0x0C40, 0xFFC0⟩,
   ⟨"reserved_r2_111_001", 0x0E40, 0xFFC0⟩] ++
  [⟨"jmp_r", 0x0100, 0xFFC0⟩,
   ⟨"call_r", 0x0300, 0xFFC0⟩,
   ⟨"push_r", 0x0500, 0xFFC0⟩,
   ⟨"pop_r", 0x0700, 0xFFC0⟩,
   ⟨"reserved_r2_100_100", 0x0900, 0xFFC0⟩,
   ⟨"reserved_r2_101_100", 0x0B00, 0xFFC0⟩,
   ⟨"mov_tr", 0x0D00, 0xFFC0⟩,
   ⟨"mov_rt", 0x0F00, 0xFFC0⟩,
   ⟨"ret", 0x0180, 0xFFC0⟩,
   ⟨"reti", 0x0380, 0xFFC0⟩,
   ⟨"dint", 0x0580, 0xFFC0⟩,
   ⟨"eint", 0x0780, 0xFFC0⟩,
   ⟨"halt", 0x0980, 0xFFC0⟩,
   ⟨"reserved_r2_101_110", 0x0B80, 0xFFC0⟩,
   ⟨"reserved_r2_110_110", 0x0D80, 0xFFC0⟩,
   ⟨"reserved_r2_111_110", 0x0F80, 0xFFC0⟩,
   ⟨"reserved_r2_xxx_010", 0x0080, 0xF1C0⟩,
   ⟨"reserved_r2_xxx_011", 0x00C0, 0xF1C0⟩,
   ⟨"reserved_r2_xxx_101", 0x0140, 0xF1C0⟩]

/-- The instruction the decoder reads from an instruction word given as the number `w`, with no prefix
pending. A word of the table has 16 bits; bits above `nbits` are zero. Every word decodes, so the
answer is never `none`. The five prefixed forms share their word with their core instruction and are
read only after a `pfixz_k` word, so their rows' words read as the core instruction here (assumption
log 22). -/
def decodeTableWord (nbits w : Nat) : Option Instr :=
  some (decode none (BitVec.ofNat 16 (w % 2 ^ nbits)))

end Sys2Proof
end

