-- ==== Sys2Proof/Machine/State.lean ====
section
/-! DEFINITION. The state of the machine as plain data, the reasons a step stops, and the state
after reset (spec/10_state.md). -/

namespace Sys2Proof.Machine

/-- The seven general registers, 16 bits each (10_state.md R20). -/
structure Regs where
  r0 : Word
  r1 : Word
  r2 : Word
  r3 : Word
  r4 : Word
  r5 : Word
  r6 : Word
deriving DecidableEq, Repr

/-- The Status register: seven one-bit flags with no layout as a word (10_state.md R25, R27). V, S, C,
Z are the SR set and AC, AZ the AR set; `i` = true means interrupts enabled (R28). -/
structure Status where
  i : Bool
  v : Bool
  s : Bool
  c : Bool
  z : Bool
  ac : Bool
  az : Bool
deriving DecidableEq, Repr

/-- A memory of `w`-bit cells: (address, cell) pairs in the one canonical form of `Mem.wf` (Ops.lean).
With `w = 8` the pairs are the host's `Host.Cell`. -/
abbrev Mem (w : Nat) := List (Nat × BitVec w)

/-- The whole state (10_state.md, opening: registers, SP, PC, flags, the pending prefix, the halted
bit, the two memories), and three fields of the model's own (`params`, `requests`, `draws`). -/
structure State where
  /-- R0 to R6 (10_state.md R20). -/
  regs : Regs
  /-- The stack pointer, a data-memory byte address (10_state.md R23). -/
  sp : Word
  /-- The program counter, a program-memory word address (10_state.md R24). -/
  pc : Word
  /-- The seven flags (10_state.md R25). -/
  status : Status
  /-- The pending prefix PFX (10_state.md R33). -/
  pfx : Option Pfx
  /-- The halted bit H (10_state.md R34). -/
  halted : Bool
  /-- Data memory, 65536 bytes (20_memory.md R50). -/
  dmem : Mem 8
  /-- Program memory, 65536 words of 16 bits (20_memory.md R52). -/
  pmem : Mem 16
  /-- The model's own: the open parameters (00_scope.md R5), which no instruction changes (assumption
  log 4). -/
  params : Params
  /-- The model's own: whether the environment presents an interrupt request at each coming boundary
  between instructions, none past the end of the list (60_exceptions.md R283, the default `IntModel`;
  assumption log 13). -/
  requests : List Bool
  /-- The model's own: how many logic instructions have drawn C and V (10_state.md R31; assumption
  log 12). -/
  draws : Nat
deriving DecidableEq, Repr

/-- What a reset leaves at "any value" (10_state.md R38, 70_reset_and_hazards.md R310): an argument of the
reset, so that a statement over every `Launch` covers every value (assumption log 28). -/
structure Launch where
  /-- R0 to R6. -/
  regs : Regs
  /-- The flag V. -/
  v : Bool
  /-- The flag S. -/
  s : Bool
  /-- The flag C. -/
  c : Bool
  /-- The flag Z. -/
  z : Bool
  /-- The flag AC. -/
  ac : Bool
  /-- The flag AZ. -/
  az : Bool
  /-- Data memory: the bytes listed; the others hold `Config.launchByte` of their address. -/
  dmem : Mem 8
deriving DecidableEq, Repr

/-- Why a step stops with a fault. The spec defines no exception (60_exceptions.md R280), so the one
reason is the terminal state. -/
inductive Fault where
  /-- The machine is halted (H = 1) and has no step (45_system.md R264, 93_implementation_defined.md
  U17). Raised by `step`, never by an instruction. Safe: the spec gives the machine no step here. -/
  | halted
deriving DecidableEq, Repr

/-- Why a step is refused: the closed list of 00_scope.md R14 and 60_exceptions.md R281, and the
host's `notModelled`. Every one is safe: the spec says that a model must not continue past it. -/
inductive Refusal where
  /-- No meaning yet: raised by an arm of `exec` only; no arm does. Safe. -/
  | notModelled (mnemonic : String)
  /-- A word the source marks Reserved (45_system.md R267). Raised by the Reserved rows. Safe. -/
  | reservedEncoding
  /-- `mov_tr` or `mov_rt`, "(Not implemented)" (45_system.md R265, R266). Safe. -/
  | notImplemented
  /-- A register field that the instruction uses holds 7 (10_state.md R22). Safe. -/
  | registerField7
  /-- A 16-bit data access at an odd address (20_memory.md R56). Safe. -/
  | misalignedWord
  /-- An access outside `DMEM_RANGE` or `PMEM_RANGE` (20_memory.md R50, R52). Safe. -/
  | unpopulatedAddress
  /-- A core instruction with no documented form under the pending prefix (40_prefix.md R128). Safe. -/
  | prefixUndocumented
  /-- A prefix word while a prefix is pending (40_prefix.md R128). Safe. -/
  | prefixAfterPrefix
  /-- An interrupt request is accepted under the default `IntModel`, which gives no entry
  (60_exceptions.md R283, R286). Raised by `step` at a boundary. Safe. -/
  | interruptEntryUnspecified
  /-- `reti` under the default `IntModel`: the spec does not give what it restores (45_system.md R263).
  Safe. -/
  | retiUnspecified
deriving DecidableEq, Repr

/-- The machine right after reset (10_state.md R38, 70_reset_and_hazards.md R310): PFX none, H = 0;
pc, SP and I at the launch values of Config; both memories with nothing listed. The general registers
and the flags V, S, C, Z, AC, AZ are "any value" there and 0 here (DESIGN CHOICE, assumption log 8 and
9); the program is loaded from outside (assumption log 11). A reset of a machine in any state is
`State.resetTo` (Machine/Reset.lean). -/
def State.reset : State where
  regs := ⟨0, 0, 0, 0, 0, 0, 0⟩
  sp := Config.resetSp
  pc := Config.resetPc
  status := ⟨Config.resetI, false, false, false, false, false, false⟩
  pfx := none
  halted := false
  dmem := []
  pmem := []
  params := Config.vectorParams
  requests := []
  draws := 0

end Sys2Proof.Machine
end

