-- ==== Sys2Proof/Machine/Flags.lean ====
section
/-! DEFINITION. The adder, the flag-update primitives and the conditions (spec/00_scope.md R10, R11;
spec/10_state.md R26, R30, R31; spec/30_encoding.md R94). -/

namespace Sys2Proof.Machine

/-- What the adder answers: the 16-bit result, the carry out of bit 15, the signed overflow. -/
structure AddOut where
  res : Word
  carry : Bool
  ovf : Bool
deriving DecidableEq, Repr

/-- `AddC(a, b, cin)` (00_scope.md R10): the 17-bit integer sum, its low 16 bits, its bit 16, and the
overflow of operands of equal sign whose result has the other sign. -/
def addC (a b : Word) (cin : Bool) : AddOut :=
  let sum17 := a.toNat + b.toNat + cin.toNat
  let res := BitVec.ofNat 16 sum17
  { res := res
    carry := sum17.testBit 16
    ovf := a.msb == b.msb && res.msb != a.msb }

/-- `a - b`, that is `AddC(a, ~b, 1)`: carry means no borrow (00_scope.md R10). -/
def subC (a b : Word) : AddOut := addC a (~~~b) true

/-- `a - b - !ac`, that is `AddC(a, ~b, AC)` (00_scope.md R10, 41_arith_logic.md R144). -/
def subBorrowC (a b : Word) (ac : Bool) : AddOut := addC a (~~~b) ac

/-- `SetSR_arith` (00_scope.md R11): Z, S, C and V; no other flag. -/
def Status.setSRArith (st : Status) (o : AddOut) : Status :=
  { st with z := o.res == 0, s := o.res.msb, c := o.carry, v := o.ovf }

/-- `SetAR` (00_scope.md R11): AC and AZ; no other flag. -/
def Status.setAR (st : Status) (o : AddOut) : Status :=
  { st with ac := o.carry, az := o.res == 0 }

/-- `SetSR_logic` (00_scope.md R11): Z and S from the result, C and V the free values given to it
(10_state.md R31); AC and AZ are kept. -/
def Status.setSRLogic (st : Status) (res : Word) (freeC freeV : Bool) : Status :=
  { st with z := res == 0, s := res.msb, c := freeC, v := freeV }

/-- `cond(cc)` over the SR flags (30_encoding.md R94). -/
def Status.holds (st : Status) : Cond → Bool
  | .eq => st.z
  | .ne => !st.z
  | .uge => st.c
  | .ult => !st.c
  | .ge => st.s == st.v
  | .lt => st.s != st.v
  | .ugt => st.c && !st.z
  | .gt => (st.s == st.v) && !st.z

end Sys2Proof.Machine
end

