-- ==== Sys2Proof/Machine/Ops.lean ====
section
/-! DEFINITION. The named operations over registers and the two memories (spec/20_memory.md), how an
instruction ends, the stack (spec/43_memory.md R223), and interrupt acceptance with the return
from it (spec/60_exceptions.md). -/

namespace Sys2Proof.Machine

/-- What part of an instruction answers: a value, or the refusal that stops the whole instruction with
nothing changed (00_scope.md R14, 92_eei_decisions.md D32). -/
abbrev Attempt (α : Type) := Except Refusal α

/-- The outcome of a whole instruction. -/
def Attempt.outcome : Attempt State → Host.Outcome State Fault Refusal
  | .ok s => .next s
  | .error r => .refused r

/-! ### Registers -/

/-- The value of a general register. -/
def Regs.get (g : Regs) : Reg → Word
  | .r0 => g.r0
  | .r1 => g.r1
  | .r2 => g.r2
  | .r3 => g.r3
  | .r4 => g.r4
  | .r5 => g.r5
  | .r6 => g.r6

/-- The registers with one of them written; there is no alias among them (10_state.md R20). -/
def Regs.set (g : Regs) (d : Reg) (v : Word) : Regs :=
  match d with
  | .r0 => { g with r0 := v }
  | .r1 => { g with r1 := v }
  | .r2 => { g with r2 := v }
  | .r3 => { g with r3 := v }
  | .r4 => { g with r4 := v }
  | .r5 => { g with r5 := v }
  | .r6 => { g with r6 := v }

/-- The state with one general register written. -/
def State.setReg (s : State) (d : Reg) (v : Word) : State := { s with regs := s.regs.set d v }

/-- The state with the flags replaced. -/
def State.setStatus (s : State) (st : Status) : State := { s with status := st }

/-! ### How an instruction ends -/

/-- The end of a core instruction that goes to `target`: PFX is consumed (40_prefix.md R123). -/
def State.retireTo (s : State) (target : Word) : State := { s with pc := target, pfx := none }

/-- The end of a core instruction that assigns no pc: pc + 1 modulo 65536, PFX consumed (00_scope.md
R13, 40_prefix.md R123). -/
def State.retire (s : State) : State := s.retireTo (s.pc + 1)

/-- An instruction whose only effect is a general register: no flag is written (10_state.md R26). -/
def State.writeBack (s : State) (d : Reg) (v : Word) : State := (s.setReg d v).retire

/-- An instruction that writes an adder result, SR and AR (10_state.md R26, 00_scope.md R11). -/
def State.writeBackArith (s : State) (d : Reg) (o : AddOut) : State :=
  ((s.setReg d o.res).setStatus ((s.status.setSRArith o).setAR o)).retire

/-- A compare: SR only (10_state.md R26). -/
def State.compareDone (s : State) (o : AddOut) : State :=
  (s.setStatus (s.status.setSRArith o)).retire

/-- An instruction that writes a logic result and SR: Z and S from the result, C and V drawn
(10_state.md R31; the draws are the opaque values of Config, assumption log 12). -/
def State.writeBackLogic (s : State) (d : Reg) (res : Word) : State :=
  { ((s.setReg d res).setStatus
      (s.status.setSRLogic res (Config.drawC s.draws) (Config.drawV s.draws))).retire with
    draws := s.draws + 1 }

/-! ### Memories -/

/-- What the memory lists at an address. A cell that is not listed has no value here: the accesses
below read it as its launch value (20_memory.md R58; assumption log 10 and 11). -/
def Mem.read? {w : Nat} : Mem w → Nat → Option (BitVec w)
  | [], _ => none
  | (k, x) :: m, a => if k = a then some x else Mem.read? m a

/-- The memory with one cell written, in canonical form when it was (Laws/Memory.lean). -/
def Mem.write {w : Nat} : Mem w → Nat → BitVec w → Mem w
  | [], a, v => [(a, v)]
  | (k, x) :: m, a, v =>
    if a < k then (a, v) :: (k, x) :: m
    else if a = k then (a, v) :: m
    else (k, x) :: Mem.write m a v

/-- Canonical from address `lo` on: addresses strictly rising and below 65536. No listed cell can equal
what an unlisted one holds, since that is no value. -/
def Mem.wfFrom {w : Nat} : Nat → Mem w → Bool
  | _, [] => true
  | lo, (k, _) :: m => decide (lo ≤ k) && decide (k < 65536) && Mem.wfFrom (k + 1) m

/-- The canonical form of a memory: equal contents are equal lists. -/
def Mem.wf {w : Nat} (m : Mem w) : Bool := Mem.wfFrom 0 m

/-- The address lies in one of the populated blocks. -/
def populated (blocks : List AddrRange) (a : Word) : Bool :=
  blocks.any fun b => decide (b.first ≤ a) && decide (a ≤ b.last)

/-- A data address is in `DMEM_RANGE` (20_memory.md R50). -/
def State.dataPopulated (s : State) (a : Word) : Bool := populated s.params.dmemRange a

/-- A program address is in `PMEM_RANGE` (20_memory.md R52). -/
def State.progPopulated (s : State) (a : Word) : Bool := populated s.params.pmemRange a

/-- The byte of data memory at an address, whether or not an access may reach it: the last one written
there, or the launch value (20_memory.md R58). -/
def State.byteAt (s : State) (a : Word) : Byte := (s.dmem.read? a.toNat).getD (Config.launchByte a)

/-- The word of program memory at a word address, whether or not an access may reach it: the one
loaded there, or the launch value (20_memory.md R64, 42_moves.md R182). -/
def State.progAt (s : State) (a : Word) : Word := (s.pmem.read? a.toNat).getD (Config.launchWord a)

/-- The state with one byte of data memory written. -/
def State.setByte (s : State) (a : Word) (b : Byte) : State :=
  { s with dmem := s.dmem.write a.toNat b }

/-- The word that the bytes at `a` and `a + 1` make (20_memory.md R54). -/
def joinBytes (o : ByteOrder) (atA atA1 : Byte) : Word :=
  match o with
  | .little => atA1 ++ atA
  | .big => atA ++ atA1

/-- The byte of a word that goes to address `a` (20_memory.md R54). -/
def firstByte (o : ByteOrder) (v : Word) : Byte :=
  match o with
  | .little => v.extractLsb' 0 8
  | .big => v.extractLsb' 8 8

/-- The byte of a word that goes to address `a + 1` (20_memory.md R54). -/
def secondByte (o : ByteOrder) (v : Word) : Byte :=
  match o with
  | .little => v.extractLsb' 8 8
  | .big => v.extractLsb' 0 8

/-- A byte access may go to `a`: any alignment, inside `DMEM_RANGE` (20_memory.md R50, R56). -/
def State.checkByte (s : State) (a : Word) : Attempt Unit :=
  if s.dataPopulated a then .ok () else .error .unpopulatedAddress

/-- A word access may go to `a`: even, else `MisalignedWord`, and then both bytes inside `DMEM_RANGE`
(20_memory.md R56, R50; the order is 60_exceptions.md R285; both bytes: assumption log 17). -/
def State.checkWord (s : State) (a : Word) : Attempt Unit :=
  if a.getLsbD 0 then .error .misalignedWord
  else if s.dataPopulated a && s.dataPopulated (a + 1) then .ok ()
  else .error .unpopulatedAddress

/-- `MemRead(a, 1)` (00_scope.md R9). -/
def State.readByte (s : State) (a : Word) : Attempt Byte := do
  s.checkByte a
  return s.byteAt a

/-- `MemRead(a, 2)` (00_scope.md R9, 20_memory.md R54). -/
def State.readWord (s : State) (a : Word) : Attempt Word := do
  s.checkWord a
  return joinBytes s.params.byteOrder (s.byteAt a) (s.byteAt (a + 1))

/-- `MemWrite(a, 1, v)` (00_scope.md R9). -/
def State.writeByte (s : State) (a : Word) (v : Byte) : Attempt State := do
  s.checkByte a
  return s.setByte a v

/-- `MemWrite(a, 2, v)` (00_scope.md R9, 20_memory.md R54). -/
def State.writeWord (s : State) (a v : Word) : Attempt State := do
  s.checkWord a
  return (s.setByte a (firstByte s.params.byteOrder v)).setByte (a + 1) (secondByte s.params.byteOrder v)

/-- `ProgRead(a)` (00_scope.md R9, 20_memory.md R52): a whole word, no alignment rule, no byte order. -/
def State.readProg (s : State) (a : Word) : Attempt Word :=
  if s.progPopulated a then .ok (s.progAt a) else .error .unpopulatedAddress

/-! ### The stack -/

/-- The step of the stack pointer, `STACK_STEP` (43_memory.md R223). -/
def stackStep : Word := 2

/-- `push`: the word goes to SP - 2, which becomes SP (43_memory.md R221, R223). -/
def State.pushWord (s : State) (v : Word) : Attempt State := do
  let t ← s.writeWord (s.sp - stackStep) v
  return { t with sp := s.sp - stackStep }

/-- The word on top of the stack (43_memory.md R222). -/
def State.topWord (s : State) : Attempt Word := s.readWord s.sp

/-- The state with the top word dropped: SP + 2 (43_memory.md R222, R223). -/
def State.dropWord (s : State) : State := { s with sp := s.sp + stackStep }

/-- A call: the address of the word after this one is pushed and the machine goes to `target`
(44_branch.md R243). -/
def State.callTo (s : State) (target : Word) : Attempt State := do
  let t ← s.pushWord (s.pc + 1)
  return t.retireTo target

/-! ### Interrupts

The spec has no synchronous exception (60_exceptions.md R280). The one entry it speaks of is the
acceptance of an interrupt request: it fixes the gating and leaves the rest to the open parameter
`IntModel`, an argument of the model (60_exceptions.md R283). -/

/-- An instance of the open parameter `IntModel` (60_exceptions.md R283), with `ε` what its environment
is at one boundary. It is no part of State: it is an argument of `stepUnder`. -/
structure IntModel (ε : Type) where
  /-- Whether the environment presents a request at this boundary: R283's `request(env, state)`. -/
  request : ε → State → Bool
  /-- The state after entry, or its refusal: R283's `enter(state)`. -/
  enter : State → Attempt State
  /-- The state after `reti`, or its refusal: R283's `return(state)`. -/
  resume : State → Attempt State

/-- The default instance (60_exceptions.md R283): a request is a free input of the environment, entry
and return are refused. -/
def defaultIntModel : IntModel Bool where
  request present _ := present
  enter _ := .error .interruptEntryUnspecified
  resume _ := .error .retiUnspecified

/-- A request is accepted at this boundary: it is presented, I = 1, PFX is none and H = 0, the gating
the spec fixes for every instance (60_exceptions.md R284). -/
def IntModel.accepts {ε : Type} (m : IntModel ε) (env : ε) (s : State) : Bool :=
  m.request env s && s.status.i && s.pfx.isNone && !s.halted

/-- Taking an exception, of which interrupt entry is the only one: what the instance gives
(60_exceptions.md R286). -/
def enterInterrupt {ε : Type} (m : IntModel ε) (s : State) : Attempt State := m.enter s

/-- The return from an interrupt: what the instance gives (60_exceptions.md R287, 45_system.md
R263). -/
def returnFromInterrupt {ε : Type} (m : IntModel ε) (s : State) : Attempt State := m.resume s

/-- The environment of the default instance at this boundary, held in State because the host's step
takes no other argument (60_exceptions.md R283; assumption log 13). -/
def State.requestPresent (s : State) : Bool := s.requests.headD false

/-- A request is accepted at this boundary under the default instance (60_exceptions.md R284). -/
def State.acceptsRequest (s : State) : Bool := defaultIntModel.accepts s.requestPresent s

/-- The state past a boundary: the environment's input for it is spent (assumption log 13). -/
def State.pastBoundary (s : State) : State := { s with requests := s.requests.tail }

end Sys2Proof.Machine
end

