-- ==== Sys2Proof/Machine/Operands.lean ====
section
/-! DEFINITION. The operand forms: register fields, immediates with and without a pending prefix,
the data addressing modes and the branch target (spec/30_encoding.md R88 to R92,
spec/40_prefix.md R122 to R128, spec/43_memory.md R200, spec/44_branch.md R240), each format's
operands in one place, in the order of refusals of spec/60_exceptions.md R285. -/

namespace Sys2Proof.Machine

/-! ### Register fields -/

/-- The register that a field value names (10_state.md R21); 7 names none (R22). -/
def regOfField (f : RegField) : Option Reg :=
  match f.toNat with
  | 0 => some .r0
  | 1 => some .r1
  | 2 => some .r2
  | 3 => some .r3
  | 4 => some .r4
  | 5 => some .r5
  | 6 => some .r6
  | _ => none

/-- The field value of a register (10_state.md R21). -/
def fieldOfReg : Reg → RegField
  | .r0 => 0
  | .r1 => 1
  | .r2 => 2
  | .r3 => 3
  | .r4 => 4
  | .r5 => 5
  | .r6 => 6

/-- The register a used field names, or `RegisterField7` (10_state.md R22). -/
def register (f : RegField) : Attempt Reg :=
  match regOfField f with
  | some r => .ok r
  | none => .error .registerField7

/-- The value read through a register field. -/
def State.regValue (s : State) (f : RegField) : Attempt Word := do
  let r ← register f
  return s.regs.get r

/-- A zeroing prefix is pending. -/
def State.zeroing (s : State) : Bool :=
  match s.pfx with
  | some p => p.zero
  | none => false

/-- `rs_val` (00_scope.md R8): zero under a pending `pfixz_k`, and then the field is not checked for 7
(40_prefix.md R125); else the register. Only formats I1 and R1 read it. -/
def State.rsValue (s : State) (rs : RegField) : Attempt Word :=
  if s.zeroing then .ok 0 else s.regValue rs

/-! ### Immediates -/

/-- An immediate: the core field extended as the instruction says when no prefix is pending, and
`imm16` of the prefix and the core field when one is (40_prefix.md R122). -/
def State.immediate (s : State) (extended field : Word) : Word :=
  match s.pfx with
  | none => extended
  | some p => imm16 p.imm field

/-- `k5`: the I1 immediate, zero-extended (30_encoding.md R89). -/
def State.imm5 (s : State) (k : BitVec 5) : Word := s.immediate (k.setWidth 16) (k.setWidth 16)

/-- `k8z`: the I2 immediate, zero-extended (30_encoding.md R90). -/
def State.imm8z (s : State) (k : BitVec 8) : Word := s.immediate (k.setWidth 16) (k.setWidth 16)

/-- `k8s`: the I2 immediate of `mov_kr` and `cmp_rk`, sign-extended (30_encoding.md R90). -/
def State.imm8s (s : State) (k : BitVec 8) : Word := s.immediate (k.signExtend 16) (k.setWidth 16)

/-- The J offset, the 9-bit field sign-extended (30_encoding.md R92). -/
def State.offset9 (s : State) (a : BitVec 9) : Word := s.immediate (a.signExtend 16) (a.setWidth 16)

/-- The number `BR_BASE` stands for (44_branch.md R240). -/
def brBaseWord : BrBase → Word
  | .branchWord => 0
  | .nextWord => 1

/-- The target of a PC-relative transfer: `pc + BR_BASE + off` (44_branch.md R240). -/
def State.branchTarget (s : State) (a : BitVec 9) : Word :=
  s.pc + brBaseWord s.params.brBase + s.offset9 a

/-! ### Which pending prefixes a format runs under -/

/-- Formats I2 and J: no prefix, or `pfix_k` (40_prefix.md R124, R128). -/
def State.checkExtendable (s : State) : Attempt Unit :=
  if s.zeroing then .error .prefixUndocumented else .ok ()

/-- Format R1: no prefix, or `pfixz_k` (40_prefix.md R125, R128). -/
def State.checkZeroable (s : State) : Attempt Unit :=
  if s.pfx.isSome && !s.zeroing then .error .prefixUndocumented else .ok ()

/-- Format R2: no prefix (40_prefix.md R128). -/
def State.checkUnprefixed (s : State) : Attempt Unit :=
  if s.pfx.isSome then .error .prefixUndocumented else .ok ()

/-- Format P: no prefix (40_prefix.md R128). -/
def State.checkNoPrefixPending (s : State) : Attempt Unit :=
  if s.pfx.isSome then .error .prefixAfterPrefix else .ok ()

/-! ### The operands of each format -/

/-- The operands of a format I1 instruction: the sum of base and offset, which is `lea_mr`'s result
and the effective address of the loads and stores (43_memory.md R200, modes 1 to 3), and Rd. -/
structure BaseOffset where
  ea : Word
  rd : Reg
deriving DecidableEq, Repr

/-- Format I1: Rs, then Rd (40_prefix.md R124, R125: both prefixes are admitted). -/
def State.operandsI1 (s : State) (k : BitVec 5) (rs rd : RegField) : Attempt BaseOffset := do
  let base ← s.rsValue rs
  let d ← register rd
  return ⟨base + s.imm5 k, d⟩

/-- Format I2: Rd. -/
def State.operandsI2 (s : State) (rd : RegField) : Attempt Reg := do
  s.checkExtendable
  register rd

/-- The two source values and Rd of a format R1 instruction. -/
structure ThreeRegs where
  rsVal : Word
  rnVal : Word
  rd : Reg
deriving DecidableEq, Repr

/-- Format R1: Rs, Rn, then Rd. -/
def State.operandsR1 (s : State) (rn rs rd : RegField) : Attempt ThreeRegs := do
  s.checkZeroable
  let a ← s.rsValue rs
  let b ← s.regValue rn
  let d ← register rd
  return ⟨a, b, d⟩

/-- The source value and Rd of a two-register format R2 instruction. -/
structure TwoRegs where
  rsVal : Word
  rd : Reg
deriving DecidableEq, Repr

/-- Format R2 with two registers: Rs, then Rd. -/
def State.operandsR2 (s : State) (rs rd : RegField) : Attempt TwoRegs := do
  s.checkUnprefixed
  let a ← s.regValue rs
  let d ← register rd
  return ⟨a, d⟩

/-- Format R2 with one register, Rd; bits 5:3 are don't-care (30_encoding.md R93). -/
def State.operandsRd (s : State) (rd : RegField) : Attempt Reg := do
  s.checkUnprefixed
  register rd

/-- `[SP, K]`: SP plus the zero-extended immediate (43_memory.md R200, mode 4). -/
def State.spAddress (s : State) (k : BitVec 8) : Word := s.sp + s.imm8z k

/-- `[Rs, Rn]`: the sum of the two sources (43_memory.md R200, mode 5). -/
def ThreeRegs.ea (o : ThreeRegs) : Word := o.rsVal + o.rnVal

/-! ### Loads and stores at an address, whatever the mode that made it -/

/-- `x[Rd] <- MemRead(ea, 2)`. -/
def State.loadWord (s : State) (ea : Word) (d : Reg) : Attempt State := do
  let v ← s.readWord ea
  return s.writeBack d v

/-- `x[Rd] <- zext_8(MemRead(ea, 1))`. -/
def State.loadByteZ (s : State) (ea : Word) (d : Reg) : Attempt State := do
  let b ← s.readByte ea
  return s.writeBack d (b.setWidth 16)

/-- `x[Rd] <- sext_8(MemRead(ea, 1))`. -/
def State.loadByteS (s : State) (ea : Word) (d : Reg) : Attempt State := do
  let b ← s.readByte ea
  return s.writeBack d (b.signExtend 16)

/-- `MemWrite(ea, 2, x[Rd])`: Rd is the data source. -/
def State.storeWord (s : State) (ea : Word) (d : Reg) : Attempt State := do
  let t ← s.writeWord ea (s.regs.get d)
  return t.retire

/-- `MemWrite(ea, 1, x[Rd][7:0])`: bits 15:8 of Rd are ignored. -/
def State.storeByte (s : State) (ea : Word) (d : Reg) : Attempt State := do
  let t ← s.writeByte ea ((s.regs.get d).extractLsb' 0 8)
  return t.retire

/-! ### Byte helpers -/

/-- `zext_8(v[7:0])` (00_scope.md R7). -/
def zextByte (v : Word) : Word := (v.extractLsb' 0 8).setWidth 16

/-- `sext_8(v[7:0])` (00_scope.md R7). -/
def sextByte (v : Word) : Word := (v.extractLsb' 0 8).signExtend 16

/-- The bytes of a word exchanged (42_moves.md R184). -/
def swapBytes (v : Word) : Word := v.extractLsb' 0 8 ++ v.extractLsb' 8 8

end Sys2Proof.Machine
end

