-- ==== Sys2Proof/Machine/ArithLogic.lean ====
section
/-! DEFINITION. The meanings of arithmetic, logic, extensions, shifts, compares and address sums
(spec/41_arith_logic.md R140 to R162). Each reads its operands in the order of refusals of
60_exceptions.md R285, all before any write (92_eei_decisions.md D32). -/

namespace Sys2Proof.Machine

/-- `add Rd, K, Rd` (`add_kr`), R140: Rd + K, SR and AR. -/
def execAddKr (k : BitVec 8) (rd : RegField) (s : State) : Host.Outcome State Fault Refusal :=
  Attempt.outcome do
    let d ← s.operandsI2 rd
    return s.writeBackArith d (addC (s.regs.get d) (s.imm8z k) false)

/-- `add Rs, Rn, Rd` (`add_rrr`), R141: Rs + Rn, SR and AR. -/
def execAddRrr (rn rs rd : RegField) (s : State) : Host.Outcome State Fault Refusal :=
  Attempt.outcome do
    let o ← s.operandsR1 rn rs rd
    return s.writeBackArith o.rd (addC o.rsVal o.rnVal false)

/-- `addc Rs, Rn, Rd` (`adc_rrr`), R142: Rs + (Rn + AC), SR and AR. -/
def execAdcRrr (rn rs rd : RegField) (s : State) : Host.Outcome State Fault Refusal :=
  Attempt.outcome do
    let o ← s.operandsR1 rn rs rd
    return s.writeBackArith o.rd (addC o.rsVal o.rnVal s.status.ac)

/-- `sub Rs, Rn, Rd` (`sub_rrr`), R143: Rs - Rn, SR and AR. -/
def execSubRrr (rn rs rd : RegField) (s : State) : Host.Outcome State Fault Refusal :=
  Attempt.outcome do
    let o ← s.operandsR1 rn rs rd
    return s.writeBackArith o.rd (subC o.rsVal o.rnVal)

/-- `subc Rs, Rn, Rd` (`subc_rrr`), R144: Rs - (Rn + !AC), SR and AR. -/
def execSubcRrr (rn rs rd : RegField) (s : State) : Host.Outcome State Fault Refusal :=
  Attempt.outcome do
    let o ← s.operandsR1 rn rs rd
    return s.writeBackArith o.rd (subBorrowC o.rsVal o.rnVal s.status.ac)

/-- `sub Rd, K, Rd` (`sub_kr`), R145: Rd - K, SR and AR. -/
def execSubKr (k : BitVec 8) (rd : RegField) (s : State) : Host.Outcome State Fault Refusal :=
  Attempt.outcome do
    let d ← s.operandsI2 rd
    return s.writeBackArith d (subC (s.regs.get d) (s.imm8z k))

/-- `neg Rs, Rd` (`neg_rr`), R146: 0 - Rs, SR and AR. -/
def execNegRr (rs rd : RegField) (s : State) : Host.Outcome State Fault Refusal :=
  Attempt.outcome do
    let o ← s.operandsR2 rs rd
    return s.writeBackArith o.rd (subC 0 o.rsVal)

/-- `zext Rs, Rd` (`zext_rr`), R147: zero-extended low byte of Rs. -/
def execZextRr (rs rd : RegField) (s : State) : Host.Outcome State Fault Refusal :=
  Attempt.outcome do
    let o ← s.operandsR2 rs rd
    return s.writeBack o.rd (zextByte o.rsVal)

/-- `sext Rs, Rd` (`sext_rr`), R148: sign-extended low byte of Rs. -/
def execSextRr (rs rd : RegField) (s : State) : Host.Outcome State Fault Refusal :=
  Attempt.outcome do
    let o ← s.operandsR2 rs rd
    return s.writeBack o.rd (sextByte o.rsVal)

/-- `sextw Rs, Rd` (`sextw_rr`), R149: all ones if Rs is negative, else zero. -/
def execSextwRr (rs rd : RegField) (s : State) : Host.Outcome State Fault Refusal :=
  Attempt.outcome do
    let o ← s.operandsR2 rs rd
    return s.writeBack o.rd (if o.rsVal.msb then 0xFFFF else 0x0000)

/-- `and Rd, K, Rd` (`and_kr`), R150: Rd & K, SR with C and V drawn. -/
def execAndKr (k : BitVec 8) (rd : RegField) (s : State) : Host.Outcome State Fault Refusal :=
  Attempt.outcome do
    let d ← s.operandsI2 rd
    return s.writeBackLogic d (s.regs.get d &&& s.imm8z k)

/-- `and Rs, Rn, Rd` (`and_rrr`), R151: Rs & Rn, SR with C and V drawn. -/
def execAndRrr (rn rs rd : RegField) (s : State) : Host.Outcome State Fault Refusal :=
  Attempt.outcome do
    let o ← s.operandsR1 rn rs rd
    return s.writeBackLogic o.rd (o.rsVal &&& o.rnVal)

/-- `or Rd, K, Rd` (`or_kr`), R152: Rd | K, SR with C and V drawn. -/
def execOrKr (k : BitVec 8) (rd : RegField) (s : State) : Host.Outcome State Fault Refusal :=
  Attempt.outcome do
    let d ← s.operandsI2 rd
    return s.writeBackLogic d (s.regs.get d ||| s.imm8z k)

/-- `or Rs, Rn, Rd` (`or_rrr`), R153: Rs | Rn, SR with C and V drawn. -/
def execOrRrr (rn rs rd : RegField) (s : State) : Host.Outcome State Fault Refusal :=
  Attempt.outcome do
    let o ← s.operandsR1 rn rs rd
    return s.writeBackLogic o.rd (o.rsVal ||| o.rnVal)

/-- `xor Rs, Rn, Rd` (`xor_rrr`), R154: Rs ^ Rn, SR with C and V drawn. -/
def execXorRrr (rn rs rd : RegField) (s : State) : Host.Outcome State Fault Refusal :=
  Attempt.outcome do
    let o ← s.operandsR1 rn rs rd
    return s.writeBackLogic o.rd (o.rsVal ^^^ o.rnVal)

/-- `not Rs, Rd` (`not_rr`), R155: the complement of Rs, SR with C and V drawn. -/
def execNotRr (rs rd : RegField) (s : State) : Host.Outcome State Fault Refusal :=
  Attempt.outcome do
    let o ← s.operandsR2 rs rd
    return s.writeBackLogic o.rd (~~~o.rsVal)

/-- `asr Rs, Rd` (`asr_rr`), R156: Rs >> 1, arithmetic. -/
def execAsrRr (rs rd : RegField) (s : State) : Host.Outcome State Fault Refusal :=
  Attempt.outcome do
    let o ← s.operandsR2 rs rd
    return s.writeBack o.rd (o.rsVal.sshiftRight 1)

/-- `lsr Rs, Rd` (`lsr_rr`), R157: Rs >> 1. -/
def execLsrRr (rs rd : RegField) (s : State) : Host.Outcome State Fault Refusal :=
  Attempt.outcome do
    let o ← s.operandsR2 rs rd
    return s.writeBack o.rd (o.rsVal >>> 1)

/-- `lsl Rs, Rd` (`lsl_rr`), R158: Rs << 1. -/
def execLslRr (rs rd : RegField) (s : State) : Host.Outcome State Fault Refusal :=
  Attempt.outcome do
    let o ← s.operandsR2 rs rd
    return s.writeBack o.rd (o.rsVal <<< 1)

/-- `cmp Rd, K` (`cmp_rk`), R159: compare Rd with the sign-extended K, SR only. -/
def execCmpRk (k : BitVec 8) (rd : RegField) (s : State) : Host.Outcome State Fault Refusal :=
  Attempt.outcome do
    let d ← s.operandsI2 rd
    return s.compareDone (subC (s.regs.get d) (s.imm8s k))

/-- `cmp Rd, Rs` (`cmp_rr`), R160: compare Rd (left) with Rs, SR only. -/
def execCmpRr (rs rd : RegField) (s : State) : Host.Outcome State Fault Refusal :=
  Attempt.outcome do
    let o ← s.operandsR2 rs rd
    return s.compareDone (subC (s.regs.get o.rd) o.rsVal)

/-- `add Rs, K, Rd` (`lea_mr`), R161: Rs + K, no flag. -/
def execLeaMr (k : BitVec 5) (rs rd : RegField) (s : State) : Host.Outcome State Fault Refusal :=
  Attempt.outcome do
    let o ← s.operandsI1 k rs rd
    return s.writeBack o.rd o.ea

/-- `add SP, K, Rd` (`lea_sr`), R162: SP + K, no flag, SP kept. -/
def execLeaSr (k : BitVec 8) (rd : RegField) (s : State) : Host.Outcome State Fault Refusal :=
  Attempt.outcome do
    let d ← s.operandsI2 rd
    return s.writeBack d (s.spAddress k)

end Sys2Proof.Machine
end

