-- ==== Sys2Proof/Machine/Branches.lean ====
section
/-! DEFINITION. The meanings of branches, jumps, calls and return (spec/44_branch.md R241 to R247).
Each reads its operands in the order of refusals of 60_exceptions.md R285, all before any write
(92_eei_decisions.md D32). -/

namespace Sys2Proof.Machine

/-- `br%cc Label` (`br_ck`), R241: to the target if the condition holds, else to the next word. -/
def execBrCk (cc : Cond) (a : BitVec 9) (s : State) : Host.Outcome State Fault Refusal :=
  Attempt.outcome do
    s.checkExtendable
    return if s.status.holds cc then s.retireTo (s.branchTarget a) else s.retire

/-- `jmp Label` (`jmp_k`), R242: to the target. -/
def execJmpK (a : BitVec 9) (s : State) : Host.Outcome State Fault Refusal :=
  Attempt.outcome do
    s.checkExtendable
    return s.retireTo (s.branchTarget a)

/-- `call Label` (`call_k`), R244: push pc + 1, to the target. -/
def execCallK (a : BitVec 9) (s : State) : Host.Outcome State Fault Refusal :=
  Attempt.outcome do
    s.checkExtendable
    s.callTo (s.branchTarget a)

/-- `jmp Rd` (`jmp_r`), R245: to the address in Rd. -/
def execJmpR (rd : RegField) (s : State) : Host.Outcome State Fault Refusal :=
  Attempt.outcome do
    let d ← s.operandsRd rd
    return s.retireTo (s.regs.get d)

/-- `call Rd` (`call_r`), R246: push pc + 1, to the address in Rd. -/
def execCallR (rd : RegField) (s : State) : Host.Outcome State Fault Refusal :=
  Attempt.outcome do
    let d ← s.operandsRd rd
    s.callTo (s.regs.get d)

/-- `ret` (`ret`), R247: pop the return address into pc. -/
def execRet (s : State) : Host.Outcome State Fault Refusal :=
  Attempt.outcome do
    s.checkUnprefixed
    let ra ← s.topWord
    return s.dropWord.retireTo ra

end Sys2Proof.Machine
end

