-- ==== Sys2Proof/Machine/Memory.lean ====
section
/-! DEFINITION. The meanings of loads, stores, stack access and program-memory read
(spec/43_memory.md R201 to R224). Each reads its operands in the order of refusals of
60_exceptions.md R285, all before any write (92_eei_decisions.md D32). -/

namespace Sys2Proof.Machine

/-- `ld.w [Rs, K], Rd` (`movw_mr`), R201: load word at Rs + K. -/
def execMovwMr (k : BitVec 5) (rs rd : RegField) (s : State) : Host.Outcome State Fault Refusal :=
  Attempt.outcome do
    let o ← s.operandsI1 k rs rd
    s.loadWord o.ea o.rd

/-- `ld.zb [Rs, K], Rd` (`movzb_mr`), R202: load zero-extended byte at Rs + K. -/
def execMovzbMr (k : BitVec 5) (rs rd : RegField) (s : State) : Host.Outcome State Fault Refusal :=
  Attempt.outcome do
    let o ← s.operandsI1 k rs rd
    s.loadByteZ o.ea o.rd

/-- `ld.sb [Rs, K], Rd` (`movsb_mr`), R203: load sign-extended byte at Rs + K. -/
def execMovsbMr (k : BitVec 5) (rs rd : RegField) (s : State) : Host.Outcome State Fault Refusal :=
  Attempt.outcome do
    let o ← s.operandsI1 k rs rd
    s.loadByteS o.ea o.rd

/-- `st.w Rd, [Rs, K]` (`movw_rm`), R204: store Rd at Rs + K. -/
def execMovwRm (k : BitVec 5) (rs rd : RegField) (s : State) : Host.Outcome State Fault Refusal :=
  Attempt.outcome do
    let o ← s.operandsI1 k rs rd
    s.storeWord o.ea o.rd

/-- `st.b Rd, [Rs, K]` (`movb_rm`), R205: store the low byte of Rd at Rs + K. -/
def execMovbRm (k : BitVec 5) (rs rd : RegField) (s : State) : Host.Outcome State Fault Refusal :=
  Attempt.outcome do
    let o ← s.operandsI1 k rs rd
    s.storeByte o.ea o.rd

/-- `ld.w [&A], Rd` (`movw_ar`), R206: load word at A. -/
def execMovwAr (addr : Word) (rd : RegField) (s : State) : Host.Outcome State Fault Refusal :=
  Attempt.outcome do
    let d ← register rd
    s.loadWord addr d

/-- `ld.zb [&A], Rd` (`movzb_ar`), R207: load zero-extended byte at A. -/
def execMovzbAr (addr : Word) (rd : RegField) (s : State) : Host.Outcome State Fault Refusal :=
  Attempt.outcome do
    let d ← register rd
    s.loadByteZ addr d

/-- `ld.sb [&A], Rd` (`movsb_ar`), R208: load sign-extended byte at A. -/
def execMovsbAr (addr : Word) (rd : RegField) (s : State) : Host.Outcome State Fault Refusal :=
  Attempt.outcome do
    let d ← register rd
    s.loadByteS addr d

/-- `st.w Rd, [&A]` (`movw_ra`), R209: store Rd at A. -/
def execMovwRa (addr : Word) (rd : RegField) (s : State) : Host.Outcome State Fault Refusal :=
  Attempt.outcome do
    let d ← register rd
    s.storeWord addr d

/-- `st.b Rd, [&A]` (`movb_ra`), R210: store the low byte of Rd at A. -/
def execMovbRa (addr : Word) (rd : RegField) (s : State) : Host.Outcome State Fault Refusal :=
  Attempt.outcome do
    let d ← register rd
    s.storeByte addr d

/-- `ld.w [SP, K], Rd` (`movw_sr`), R211: load word at SP + K. -/
def execMovwSr (k : BitVec 8) (rd : RegField) (s : State) : Host.Outcome State Fault Refusal :=
  Attempt.outcome do
    let d ← s.operandsI2 rd
    s.loadWord (s.spAddress k) d

/-- `ld.sb [SP, K], Rd` (`movsb_sr`), R212: load sign-extended byte at SP + K. -/
def execMovsbSr (k : BitVec 8) (rd : RegField) (s : State) : Host.Outcome State Fault Refusal :=
  Attempt.outcome do
    let d ← s.operandsI2 rd
    s.loadByteS (s.spAddress k) d

/-- `ld.zb [SP, K], Rd` (`movzb_sr`), R213: load zero-extended byte at SP + K. -/
def execMovzbSr (k : BitVec 8) (rd : RegField) (s : State) : Host.Outcome State Fault Refusal :=
  Attempt.outcome do
    let d ← s.operandsI2 rd
    s.loadByteZ (s.spAddress k) d

/-- `st.w Rd, [SP, K]` (`movw_rs`), R214: store Rd at SP + K. -/
def execMovwRs (k : BitVec 8) (rd : RegField) (s : State) : Host.Outcome State Fault Refusal :=
  Attempt.outcome do
    let d ← s.operandsI2 rd
    s.storeWord (s.spAddress k) d

/-- `st.b Rd, [SP, K]` (`movb_rs`), R215: store the low byte of Rd at SP + K. -/
def execMovbRs (k : BitVec 8) (rd : RegField) (s : State) : Host.Outcome State Fault Refusal :=
  Attempt.outcome do
    let d ← s.operandsI2 rd
    s.storeByte (s.spAddress k) d

/-- `ld.w [Rs, Rn], Rd` (`movw_nr`), R216: load word at Rs + Rn. -/
def execMovwNr (rn rs rd : RegField) (s : State) : Host.Outcome State Fault Refusal :=
  Attempt.outcome do
    let o ← s.operandsR1 rn rs rd
    s.loadWord o.ea o.rd

/-- `ld.zb [Rs, Rn], Rd` (`movzb_nr`), R217: load zero-extended byte at Rs + Rn. -/
def execMovzbNr (rn rs rd : RegField) (s : State) : Host.Outcome State Fault Refusal :=
  Attempt.outcome do
    let o ← s.operandsR1 rn rs rd
    s.loadByteZ o.ea o.rd

/-- `ld.sb [Rs, Rn], Rd` (`movsb_nr`), R218: load sign-extended byte at Rs + Rn. -/
def execMovsbNr (rn rs rd : RegField) (s : State) : Host.Outcome State Fault Refusal :=
  Attempt.outcome do
    let o ← s.operandsR1 rn rs rd
    s.loadByteS o.ea o.rd

/-- `st.w Rd, [Rs, Rn]` (`movw_rn`), R219: store Rd at Rs + Rn. -/
def execMovwRn (rn rs rd : RegField) (s : State) : Host.Outcome State Fault Refusal :=
  Attempt.outcome do
    let o ← s.operandsR1 rn rs rd
    s.storeWord o.ea o.rd

/-- `st.b Rd, [Rs, Rn]` (`movb_rn`), R220: store the low byte of Rd at Rs + Rn. -/
def execMovbRn (rn rs rd : RegField) (s : State) : Host.Outcome State Fault Refusal :=
  Attempt.outcome do
    let o ← s.operandsR1 rn rs rd
    s.storeByte o.ea o.rd

/-- `push Rd` (`push_r`), R221: SP - 2, then Rd stored there. -/
def execPushR (rd : RegField) (s : State) : Host.Outcome State Fault Refusal :=
  Attempt.outcome do
    let d ← s.operandsRd rd
    let t ← s.pushWord (s.regs.get d)
    return t.retire

/-- `pop Rd` (`pop_r`), R222: the word at SP to Rd, SP + 2. -/
def execPopR (rd : RegField) (s : State) : Host.Outcome State Fault Refusal :=
  Attempt.outcome do
    let d ← s.operandsRd rd
    let v ← s.topWord
    return s.dropWord.writeBack d v

/-- `ld.w {Rs}, Rd` (`movw_pr`), R224: the program-memory word at address Rs. -/
def execMovwPr (rs rd : RegField) (s : State) : Host.Outcome State Fault Refusal :=
  Attempt.outcome do
    let o ← s.operandsR2 rs rd
    let v ← s.readProg o.rsVal
    return s.writeBack o.rd v

end Sys2Proof.Machine
end

