-- ==== Sys2Proof/Machine/Moves.lean ====
section
/-! DEFINITION. The meanings of moves, byte swap, select and set (spec/42_moves.md R180 to R186).
Each reads its operands in the order of refusals of 60_exceptions.md R285, all before any write
(92_eei_decisions.md D32). -/

namespace Sys2Proof.Machine

/-- `mov K, Rd` (`mov_kr`), R180: copy the sign-extended K. -/
def execMovKr (k : BitVec 8) (rd : RegField) (s : State) : Host.Outcome State Fault Refusal :=
  Attempt.outcome do
    let d ← s.operandsI2 rd
    return s.writeBack d (s.imm8s k)

/-- `mov Rs, Rd` (`mov_rr`), R181: copy Rs; the word 0x0000 is the idiom NOP (R182). -/
def execMovRr (rs rd : RegField) (s : State) : Host.Outcome State Fault Refusal :=
  Attempt.outcome do
    let o ← s.operandsR2 rs rd
    return s.writeBack o.rd o.rsVal

/-- `bswap Rs, Rd` (`bswap_rr`), R184: the swapped bytes of Rs. -/
def execBswapRr (rs rd : RegField) (s : State) : Host.Outcome State Fault Refusal :=
  Attempt.outcome do
    let o ← s.operandsR2 rs rd
    return s.writeBack o.rd (swapBytes o.rsVal)

/-- `sel%cc Rs, Rn, Rd` (`sel_crrr`), R185: Rs if the condition holds, else Rn; no flag. -/
def execSelCrrr (cc : Cond) (rn rs rd : RegField) (s : State) : Host.Outcome State Fault Refusal :=
  Attempt.outcome do
    let o ← s.operandsR1 rn rs rd
    return s.writeBack o.rd (if s.status.holds cc then o.rsVal else o.rnVal)

/-- `set%cc Rd` (`set_cr`), R186: 1 if the condition holds, else 0; no flag. -/
def execSetCr (cc : Cond) (rd : RegField) (s : State) : Host.Outcome State Fault Refusal :=
  Attempt.outcome do
    let d ← s.operandsRd rd
    return s.writeBack d (if s.status.holds cc then 1 else 0)

end Sys2Proof.Machine
end

