-- ==== Sys2Proof/Machine/Prefixes.lean ====
section
/-! DEFINITION. The meanings of the prefix instructions (spec/40_prefix.md R120, R121).
Each reads its operands in the order of refusals of 60_exceptions.md R285, all before any write
(92_eei_decisions.md D32). -/

namespace Sys2Proof.Machine

/-- `pfix K` (`pfix_k`), R120: PFX becomes (0, p_imm); a pending prefix gives `PrefixAfterPrefix`.
-/
def execPfixK (pImm : BitVec 11) (s : State) : Host.Outcome State Fault Refusal :=
  Attempt.outcome do
    s.checkNoPrefixPending
    return { s with pc := s.pc + 1, pfx := some ⟨false, pImm⟩ }

/-- `pfixz K` (`pfixz_k`), R121: PFX becomes (1, p_imm); a pending prefix gives `PrefixAfterPrefix`.
-/
def execPfixzK (pImm : BitVec 11) (s : State) : Host.Outcome State Fault Refusal :=
  Attempt.outcome do
    s.checkNoPrefixPending
    return { s with pc := s.pc + 1, pfx := some ⟨true, pImm⟩ }

end Sys2Proof.Machine
end

