-- ==== Sys2Proof/Machine/System.lean ====
section
/-! DEFINITION. The meanings of interrupt control, halt, unimplemented and Reserved encodings
(spec/45_system.md R261 to R267). Each reads its operands in the order of refusals of
60_exceptions.md R285, all before any write (92_eei_decisions.md D32). -/

namespace Sys2Proof.Machine

/-- `eint` (`eint`), R261: I becomes 1, no other flag. -/
def execEint (s : State) : Host.Outcome State Fault Refusal :=
  Attempt.outcome do
    s.checkUnprefixed
    return (s.setStatus { s.status with i := true }).retire

/-- `dint` (`dint`), R262: I becomes 0, no other flag. -/
def execDint (s : State) : Host.Outcome State Fault Refusal :=
  Attempt.outcome do
    s.checkUnprefixed
    return (s.setStatus { s.status with i := false }).retire

/-- `reti` (`reti`) under an instance of `IntModel`, R263: that instance's return sequence. -/
def execRetiUnder {ε : Type} (m : IntModel ε) (s : State) : Host.Outcome State Fault Refusal :=
  Attempt.outcome do
    s.checkUnprefixed
    returnFromInterrupt m s

/-- `reti` (`reti`), R263, under the default instance of `IntModel`, which refuses. -/
def execReti (s : State) : Host.Outcome State Fault Refusal := execRetiUnder defaultIntModel s

/-- `halt` (`halt`), R264: H becomes 1 and pc the address after the word; the halted machine has no
further step (`step`). -/
def execHalt (s : State) : Host.Outcome State Fault Refusal :=
  Attempt.outcome do
    s.checkUnprefixed
    return { s.retire with halted := true }

/-- `mov SR, Rd` (`mov_tr`), R265: refused: the source marks it "(Not implemented)", whatever its
low bits and PFX (60_exceptions.md R285). -/
def execMovTr (_rd : RegField) (_s : State) : Host.Outcome State Fault Refusal :=
  .refused .notImplemented

/-- `mov Rd, SR` (`mov_rt`), R266: refused: the source marks it "(Not implemented)", whatever its
low bits and PFX (60_exceptions.md R285). -/
def execMovRt (_rd : RegField) (_s : State) : Host.Outcome State Fault Refusal :=
  .refused .notImplemented

/-- `reserved_i1_110`, R267: refused: Reserved, whatever PFX (60_exceptions.md R285). -/
def execReservedI1x110 (_s : State) : Host.Outcome State Fault Refusal :=
  .refused .reservedEncoding

/-- `reserved_i1_111`, R267: refused: Reserved, whatever PFX (60_exceptions.md R285). -/
def execReservedI1x111 (_s : State) : Host.Outcome State Fault Refusal :=
  .refused .reservedEncoding

/-- `reserved_r1_0111`, R267: refused: Reserved, whatever PFX (60_exceptions.md R285). -/
def execReservedR1x0111 (_s : State) : Host.Outcome State Fault Refusal :=
  .refused .reservedEncoding

/-- `reserved_r1_1000`, R267: refused: Reserved, whatever PFX (60_exceptions.md R285). -/
def execReservedR1x1000 (_s : State) : Host.Outcome State Fault Refusal :=
  .refused .reservedEncoding

/-- `reserved_r2_110_000`, R267: refused: Reserved, whatever PFX (60_exceptions.md R285). -/
def execReservedR2x110x000 (_s : State) : Host.Outcome State Fault Refusal :=
  .refused .reservedEncoding

/-- `reserved_r2_011_001`, R267: refused: Reserved, whatever PFX (60_exceptions.md R285). -/
def execReservedR2x011x001 (_s : State) : Host.Outcome State Fault Refusal :=
  .refused .reservedEncoding

/-- `reserved_r2_100_001`, R267: refused: Reserved, whatever PFX (60_exceptions.md R285). -/
def execReservedR2x100x001 (_s : State) : Host.Outcome State Fault Refusal :=
  .refused .reservedEncoding

/-- `reserved_r2_111_001`, R267: refused: Reserved, whatever PFX (60_exceptions.md R285). -/
def execReservedR2x111x001 (_s : State) : Host.Outcome State Fault Refusal :=
  .refused .reservedEncoding

/-- `reserved_r2_100_100`, R267: refused: Reserved, whatever PFX (60_exceptions.md R285). -/
def execReservedR2x100x100 (_s : State) : Host.Outcome State Fault Refusal :=
  .refused .reservedEncoding

/-- `reserved_r2_101_100`, R267: refused: Reserved, whatever PFX (60_exceptions.md R285). -/
def execReservedR2x101x100 (_s : State) : Host.Outcome State Fault Refusal :=
  .refused .reservedEncoding

/-- `reserved_r2_101_110`, R267: refused: Reserved, whatever PFX (60_exceptions.md R285). -/
def execReservedR2x101x110 (_s : State) : Host.Outcome State Fault Refusal :=
  .refused .reservedEncoding

/-- `reserved_r2_110_110`, R267: refused: Reserved, whatever PFX (60_exceptions.md R285). -/
def execReservedR2x110x110 (_s : State) : Host.Outcome State Fault Refusal :=
  .refused .reservedEncoding

/-- `reserved_r2_111_110`, R267: refused: Reserved, whatever PFX (60_exceptions.md R285). -/
def execReservedR2x111x110 (_s : State) : Host.Outcome State Fault Refusal :=
  .refused .reservedEncoding

/-- `reserved_r2_xxx_010`, R267: refused: Reserved, whatever PFX (60_exceptions.md R285). -/
def execReservedR2any010 (_s : State) : Host.Outcome State Fault Refusal :=
  .refused .reservedEncoding

/-- `reserved_r2_xxx_011`, R267: refused: Reserved, whatever PFX (60_exceptions.md R285). -/
def execReservedR2any011 (_s : State) : Host.Outcome State Fault Refusal :=
  .refused .reservedEncoding

/-- `reserved_r2_xxx_101`, R267: refused: Reserved, whatever PFX (60_exceptions.md R285). -/
def execReservedR2any101 (_s : State) : Host.Outcome State Fault Refusal :=
  .refused .reservedEncoding

end Sys2Proof.Machine
end

