-- ==== Sys2Proof/Machine/Dispatch.lean ====
section
/-! DEFINITION. `exec`: one arm for each constructor of `Instr`, each one call of its meaning. -/

namespace Sys2Proof.Machine

def exec (i : Instr) (s : State) : Host.Outcome State Fault Refusal :=
  match i with
  | .pfixK pImm => Sys2Proof.Machine.execPfixK pImm s
  | .pfixzK pImm => Sys2Proof.Machine.execPfixzK pImm s
  | .leaMr k rs rd => Sys2Proof.Machine.execLeaMr k rs rd s
  | .movwMr k rs rd => Sys2Proof.Machine.execMovwMr k rs rd s
  | .movzbMr k rs rd => Sys2Proof.Machine.execMovzbMr k rs rd s
  | .movsbMr k rs rd => Sys2Proof.Machine.execMovsbMr k rs rd s
  | .movwRm k rs rd => Sys2Proof.Machine.execMovwRm k rs rd s
  | .movbRm k rs rd => Sys2Proof.Machine.execMovbRm k rs rd s
  | .reservedI1x110 => Sys2Proof.Machine.execReservedI1x110 s
  | .reservedI1x111 => Sys2Proof.Machine.execReservedI1x111 s
  | .movKr k rd => Sys2Proof.Machine.execMovKr k rd s
  | .cmpRk k rd => Sys2Proof.Machine.execCmpRk k rd s
  | .addKr k rd => Sys2Proof.Machine.execAddKr k rd s
  | .subKr k rd => Sys2Proof.Machine.execSubKr k rd s
  | .andKr k rd => Sys2Proof.Machine.execAndKr k rd s
  | .orKr k rd => Sys2Proof.Machine.execOrKr k rd s
  | .leaSr k rd => Sys2Proof.Machine.execLeaSr k rd s
  | .movwSr k rd => Sys2Proof.Machine.execMovwSr k rd s
  | .movsbSr k rd => Sys2Proof.Machine.execMovsbSr k rd s
  | .movzbSr k rd => Sys2Proof.Machine.execMovzbSr k rd s
  | .movwRs k rd => Sys2Proof.Machine.execMovwRs k rd s
  | .movbRs k rd => Sys2Proof.Machine.execMovbRs k rd s
  | .brCk cc a => Sys2Proof.Machine.execBrCk cc a s
  | .jmpK a => Sys2Proof.Machine.execJmpK a s
  | .callK a => Sys2Proof.Machine.execCallK a s
  | .addRrr rn rs rd => Sys2Proof.Machine.execAddRrr rn rs rd s
  | .adcRrr rn rs rd => Sys2Proof.Machine.execAdcRrr rn rs rd s
  | .subRrr rn rs rd => Sys2Proof.Machine.execSubRrr rn rs rd s
  | .subcRrr rn rs rd => Sys2Proof.Machine.execSubcRrr rn rs rd s
  | .orRrr rn rs rd => Sys2Proof.Machine.execOrRrr rn rs rd s
  | .andRrr rn rs rd => Sys2Proof.Machine.execAndRrr rn rs rd s
  | .xorRrr rn rs rd => Sys2Proof.Machine.execXorRrr rn rs rd s
  | .reservedR1x0111 => Sys2Proof.Machine.execReservedR1x0111 s
  | .reservedR1x1000 => Sys2Proof.Machine.execReservedR1x1000 s
  | .movwNr rn rs rd => Sys2Proof.Machine.execMovwNr rn rs rd s
  | .movzbNr rn rs rd => Sys2Proof.Machine.execMovzbNr rn rs rd s
  | .movsbNr rn rs rd => Sys2Proof.Machine.execMovsbNr rn rs rd s
  | .movwRn rn rs rd => Sys2Proof.Machine.execMovwRn rn rs rd s
  | .movbRn rn rs rd => Sys2Proof.Machine.execMovbRn rn rs rd s
  | .selCrrr cc rn rs rd => Sys2Proof.Machine.execSelCrrr cc rn rs rd s
  | .setCr cc rd => Sys2Proof.Machine.execSetCr cc rd s
  | .movRr rs rd => Sys2Proof.Machine.execMovRr rs rd s
  | .cmpRr rs rd => Sys2Proof.Machine.execCmpRr rs rd s
  | .zextRr rs rd => Sys2Proof.Machine.execZextRr rs rd s
  | .sextRr rs rd => Sys2Proof.Machine.execSextRr rs rd s
  | .bswapRr rs rd => Sys2Proof.Machine.execBswapRr rs rd s
  | .sextwRr rs rd => Sys2Proof.Machine.execSextwRr rs rd s
  | .reservedR2x110x000 => Sys2Proof.Machine.execReservedR2x110x000 s
  | .movwPr rs rd => Sys2Proof.Machine.execMovwPr rs rd s
  | .lsrRr rs rd => Sys2Proof.Machine.execLsrRr rs rd s
  | .lslRr rs rd => Sys2Proof.Machine.execLslRr rs rd s
  | .asrRr rs rd => Sys2Proof.Machine.execAsrRr rs rd s
  | .reservedR2x011x001 => Sys2Proof.Machine.execReservedR2x011x001 s
  | .reservedR2x100x001 => Sys2Proof.Machine.execReservedR2x100x001 s
  | .negRr rs rd => Sys2Proof.Machine.execNegRr rs rd s
  | .notRr rs rd => Sys2Proof.Machine.execNotRr rs rd s
  | .reservedR2x111x001 => Sys2Proof.Machine.execReservedR2x111x001 s
  | .jmpR rd => Sys2Proof.Machine.execJmpR rd s
  | .callR rd => Sys2Proof.Machine.execCallR rd s
  | .pushR rd => Sys2Proof.Machine.execPushR rd s
  | .popR rd => Sys2Proof.Machine.execPopR rd s
  | .reservedR2x100x100 => Sys2Proof.Machine.execReservedR2x100x100 s
  | .reservedR2x101x100 => Sys2Proof.Machine.execReservedR2x101x100 s
  | .movTr rd => Sys2Proof.Machine.execMovTr rd s
  | .movRt rd => Sys2Proof.Machine.execMovRt rd s
  | .ret => Sys2Proof.Machine.execRet s
  | .reti => Sys2Proof.Machine.execReti s
  | .dint => Sys2Proof.Machine.execDint s
  | .eint => Sys2Proof.Machine.execEint s
  | .halt => Sys2Proof.Machine.execHalt s
  | .reservedR2x101x110 => Sys2Proof.Machine.execReservedR2x101x110 s
  | .reservedR2x110x110 => Sys2Proof.Machine.execReservedR2x110x110 s
  | .reservedR2x111x110 => Sys2Proof.Machine.execReservedR2x111x110 s
  | .reservedR2any010 => Sys2Proof.Machine.execReservedR2any010 s
  | .reservedR2any011 => Sys2Proof.Machine.execReservedR2any011 s
  | .reservedR2any101 => Sys2Proof.Machine.execReservedR2any101 s
  | .movwAr addr rd => Sys2Proof.Machine.execMovwAr addr rd s
  | .movzbAr addr rd => Sys2Proof.Machine.execMovzbAr addr rd s
  | .movsbAr addr rd => Sys2Proof.Machine.execMovsbAr addr rd s
  | .movwRa addr rd => Sys2Proof.Machine.execMovwRa addr rd s
  | .movbRa addr rd => Sys2Proof.Machine.execMovbRa addr rd s

end Sys2Proof.Machine
end

