-- ==== Sys2Proof/Machine/Fetch.lean ====
section
/-! DEFINITION. Fetching the word at pc and reading it as an instruction (spec/20_memory.md R52,
spec/30_encoding.md R107), and placing a word where the next fetch reads it. -/

namespace Sys2Proof.Machine

/-- The instruction at pc: the program word there, decoded under the pending prefix. A fetch outside
`PMEM_RANGE` is refused before anything else (60_exceptions.md R285). -/
def State.fetch (s : State) : Attempt Instr := do
  let w ← s.readProg s.pc
  return decode s.pfx w

/-- The state with a program word placed at pc. Program memory is words, so there is no byte order
(20_memory.md R54), and every instruction is one word (30_encoding.md R80). -/
def State.placeAtPc (s : State) (w : Word) : State := { s with pmem := s.pmem.write s.pc.toNat w }

end Sys2Proof.Machine
end

