-- ==== Sys2Proof/Machine/Boundary.lean ====
section
/-! DEFINITION. One step under any instance of the open parameter `IntModel` (spec/60_exceptions.md
R283, R284): the boundary between two instructions, at which a request may be accepted, then one
instruction word. -/

namespace Sys2Proof.Machine

/-- An instruction under an instance: `reti` is that instance's return sequence (45_system.md R263),
every other instruction its own meaning. -/
def execUnder {ε : Type} (m : IntModel ε) (i : Instr) (s : State) : Host.Outcome State Fault Refusal :=
  if i = .reti then execRetiUnder m s else exec i s

/-- One step under the instance `m`, in the environment `env` of this boundary. With H = 1 there is no
step (45_system.md R264). A request that is accepted enters the interrupt, which is a step of its own
(60_exceptions.md R284, R286; assumption log 27). Otherwise the word at pc is fetched, decoded under
PFX and executed. -/
def stepUnder {ε : Type} (m : IntModel ε) (env : ε) (s : State) : Host.Outcome State Fault Refusal :=
  if s.halted then .fault .halted
  else if m.accepts env s then (enterInterrupt m s).outcome
  else
    match s.fetch with
    | .ok i => execUnder m i s
    | .error r => .refused r

end Sys2Proof.Machine
end

