-- ==== Sys2Proof/Machine/Step.lean ====
section
/-! DEFINITION. One step of the machine under the default interrupt model, and the state with a word
placed where the next step fetches it (spec/60_exceptions.md R283, spec/70_reset_and_hazards.md R314,
R315). -/

namespace Sys2Proof.Machine

/-- One step of the machine: `stepUnder` with the default instance of `IntModel` (60_exceptions.md R283),
whose environment at this boundary is the head of `requests`, spent by the step. -/
def step (s : State) : Host.Outcome State Fault Refusal :=
  stepUnder defaultIntModel s.requestPresent s.pastBoundary

/-- `s` with the instruction word given as the number `w` placed at pc, where the next step fetches.
An instruction of the table is one 16-bit word; bits above `nbits` are zero. -/
def State.withFetchWord (s : State) (nbits w : Nat) : State :=
  s.placeAtPc (BitVec.ofNat 16 (w % 2 ^ nbits))

end Sys2Proof.Machine
end

