-- ==== Sys2Proof/Machine/Reset.lean ====
section
/-! DEFINITION. Reset as an event that can come to a machine in any state, beside the steps
(spec/70_reset_and_hazards.md R310, spec/10_state.md R38). -/

namespace Sys2Proof.Machine

/-- The choice of `State.reset` for what the spec leaves at any value. DESIGN CHOICE, assumption log 8 to
10. -/
def Launch.chosen : Launch where
  regs := ⟨0, 0, 0, 0, 0, 0, 0⟩
  v := false
  s := false
  c := false
  z := false
  ac := false
  az := false
  dmem := []

/-- The machine `s` after a reset (70_reset_and_hazards.md R310, the table of 10_state.md R38): pc, SP and I
at the open parameters, no pending prefix, H = 0, the general registers, the other flags and data memory
at the values `l`, program memory as it was. The environment's inputs and the count of draws are no state
of the spec's machine and go on (assumption log 28). -/
def State.resetTo (l : Launch) (s : State) : State where
  regs := l.regs
  sp := s.params.resetSp
  pc := s.params.resetPc
  status := ⟨s.params.resetI, l.v, l.s, l.c, l.z, l.ac, l.az⟩
  pfx := none
  halted := false
  dmem := l.dmem
  pmem := s.pmem
  params := s.params
  requests := s.requests
  draws := s.draws

/-- What can come to the machine next, with `ε` the environment of an `IntModel`. -/
inductive Event (ε : Type) where
  /-- A boundary with the environment `env`, and the step from it. -/
  | boundary (env : ε)
  /-- A reset, which leaves `l` where the spec leaves any value. -/
  | reset (l : Launch)
deriving DecidableEq, Repr

/-- The machine at an event. A reset takes effect in every state, the halted one among them, which it alone
leaves (70_reset_and_hazards.md R310, 45_system.md R264). -/
def advance {ε : Type} (m : IntModel ε) (e : Event ε) (s : State) : Host.Outcome State Fault Refusal :=
  match e with
  | .boundary env => stepUnder m env s
  | .reset l => .next (s.resetTo l)

end Sys2Proof.Machine
end

