-- ==== Sys2Proof/Laws/State.lean ====
section
/-! SUPPORT. What each state update leaves in each field, true by `rfl`, and the laws of the register
file and of the flag updates, so that no proof unfolds a record update. -/

namespace Sys2Proof.Machine

@[simp] theorem State.setReg_regs (s : State) (d : Reg) (v : Word) :
    (s.setReg d v).regs = s.regs.set d v := rfl
@[simp] theorem State.setReg_sp (s : State) (d : Reg) (v : Word) : (s.setReg d v).sp = s.sp := rfl
@[simp] theorem State.setReg_pc (s : State) (d : Reg) (v : Word) : (s.setReg d v).pc = s.pc := rfl
@[simp] theorem State.setReg_status (s : State) (d : Reg) (v : Word) :
    (s.setReg d v).status = s.status := rfl
@[simp] theorem State.setReg_pfx (s : State) (d : Reg) (v : Word) :
    (s.setReg d v).pfx = s.pfx := rfl
@[simp] theorem State.setReg_halted (s : State) (d : Reg) (v : Word) :
    (s.setReg d v).halted = s.halted := rfl
@[simp] theorem State.setReg_dmem (s : State) (d : Reg) (v : Word) :
    (s.setReg d v).dmem = s.dmem := rfl
@[simp] theorem State.setReg_pmem (s : State) (d : Reg) (v : Word) :
    (s.setReg d v).pmem = s.pmem := rfl
@[simp] theorem State.setReg_params (s : State) (d : Reg) (v : Word) :
    (s.setReg d v).params = s.params := rfl
@[simp] theorem State.setReg_requests (s : State) (d : Reg) (v : Word) :
    (s.setReg d v).requests = s.requests := rfl
@[simp] theorem State.setReg_draws (s : State) (d : Reg) (v : Word) :
    (s.setReg d v).draws = s.draws := rfl

@[simp] theorem State.setStatus_regs (s : State) (st : Status) :
    (s.setStatus st).regs = s.regs := rfl
@[simp] theorem State.setStatus_sp (s : State) (st : Status) : (s.setStatus st).sp = s.sp := rfl
@[simp] theorem State.setStatus_pc (s : State) (st : Status) : (s.setStatus st).pc = s.pc := rfl
@[simp] theorem State.setStatus_status (s : State) (st : Status) :
    (s.setStatus st).status = st := rfl
@[simp] theorem State.setStatus_pfx (s : State) (st : Status) : (s.setStatus st).pfx = s.pfx := rfl
@[simp] theorem State.setStatus_halted (s : State) (st : Status) :
    (s.setStatus st).halted = s.halted := rfl
@[simp] theorem State.setStatus_dmem (s : State) (st : Status) :
    (s.setStatus st).dmem = s.dmem := rfl
@[simp] theorem State.setStatus_pmem (s : State) (st : Status) :
    (s.setStatus st).pmem = s.pmem := rfl
@[simp] theorem State.setStatus_params (s : State) (st : Status) :
    (s.setStatus st).params = s.params := rfl
@[simp] theorem State.setStatus_requests (s : State) (st : Status) :
    (s.setStatus st).requests = s.requests := rfl
@[simp] theorem State.setStatus_draws (s : State) (st : Status) :
    (s.setStatus st).draws = s.draws := rfl

@[simp] theorem State.retireTo_regs (s : State) (t : Word) : (s.retireTo t).regs = s.regs := rfl
@[simp] theorem State.retireTo_sp (s : State) (t : Word) : (s.retireTo t).sp = s.sp := rfl
@[simp] theorem State.retireTo_pc (s : State) (t : Word) : (s.retireTo t).pc = t := rfl
@[simp] theorem State.retireTo_status (s : State) (t : Word) :
    (s.retireTo t).status = s.status := rfl
@[simp] theorem State.retireTo_pfx (s : State) (t : Word) : (s.retireTo t).pfx = none := rfl
@[simp] theorem State.retireTo_halted (s : State) (t : Word) :
    (s.retireTo t).halted = s.halted := rfl
@[simp] theorem State.retireTo_dmem (s : State) (t : Word) : (s.retireTo t).dmem = s.dmem := rfl
@[simp] theorem State.retireTo_pmem (s : State) (t : Word) : (s.retireTo t).pmem = s.pmem := rfl
@[simp] theorem State.retireTo_params (s : State) (t : Word) :
    (s.retireTo t).params = s.params := rfl
@[simp] theorem State.retireTo_requests (s : State) (t : Word) :
    (s.retireTo t).requests = s.requests := rfl
@[simp] theorem State.retireTo_draws (s : State) (t : Word) : (s.retireTo t).draws = s.draws := rfl

@[simp] theorem State.retire_regs (s : State) : (s.retire).regs = s.regs := rfl
@[simp] theorem State.retire_sp (s : State) : (s.retire).sp = s.sp := rfl
@[simp] theorem State.retire_pc (s : State) : (s.retire).pc = s.pc + 1 := rfl
@[simp] theorem State.retire_status (s : State) : (s.retire).status = s.status := rfl
@[simp] theorem State.retire_pfx (s : State) : (s.retire).pfx = none := rfl
@[simp] theorem State.retire_halted (s : State) : (s.retire).halted = s.halted := rfl
@[simp] theorem State.retire_dmem (s : State) : (s.retire).dmem = s.dmem := rfl
@[simp] theorem State.retire_pmem (s : State) : (s.retire).pmem = s.pmem := rfl
@[simp] theorem State.retire_params (s : State) : (s.retire).params = s.params := rfl
@[simp] theorem State.retire_requests (s : State) : (s.retire).requests = s.requests := rfl
@[simp] theorem State.retire_draws (s : State) : (s.retire).draws = s.draws := rfl

@[simp] theorem State.writeBack_regs (s : State) (d : Reg) (v : Word) :
    (s.writeBack d v).regs = s.regs.set d v := rfl
@[simp] theorem State.writeBack_sp (s : State) (d : Reg) (v : Word) :
    (s.writeBack d v).sp = s.sp := rfl
@[simp] theorem State.writeBack_pc (s : State) (d : Reg) (v : Word) :
    (s.writeBack d v).pc = s.pc + 1 := rfl
@[simp] theorem State.writeBack_status (s : State) (d : Reg) (v : Word) :
    (s.writeBack d v).status = s.status := rfl
@[simp] theorem State.writeBack_pfx (s : State) (d : Reg) (v : Word) :
    (s.writeBack d v).pfx = none := rfl
@[simp] theorem State.writeBack_halted (s : State) (d : Reg) (v : Word) :
    (s.writeBack d v).halted = s.halted := rfl
@[simp] theorem State.writeBack_dmem (s : State) (d : Reg) (v : Word) :
    (s.writeBack d v).dmem = s.dmem := rfl
@[simp] theorem State.writeBack_pmem (s : State) (d : Reg) (v : Word) :
    (s.writeBack d v).pmem = s.pmem := rfl
@[simp] theorem State.writeBack_params (s : State) (d : Reg) (v : Word) :
    (s.writeBack d v).params = s.params := rfl
@[simp] theorem State.writeBack_requests (s : State) (d : Reg) (v : Word) :
    (s.writeBack d v).requests = s.requests := rfl
@[simp] theorem State.writeBack_draws (s : State) (d : Reg) (v : Word) :
    (s.writeBack d v).draws = s.draws := rfl

@[simp] theorem State.writeBackArith_regs (s : State) (d : Reg) (o : AddOut) :
    (s.writeBackArith d o).regs = s.regs.set d o.res := rfl
@[simp] theorem State.writeBackArith_sp (s : State) (d : Reg) (o : AddOut) :
    (s.writeBackArith d o).sp = s.sp := rfl
@[simp] theorem State.writeBackArith_pc (s : State) (d : Reg) (o : AddOut) :
    (s.writeBackArith d o).pc = s.pc + 1 := rfl
@[simp] theorem State.writeBackArith_status (s : State) (d : Reg) (o : AddOut) :
    (s.writeBackArith d o).status = (s.status.setSRArith o).setAR o := rfl
@[simp] theorem State.writeBackArith_pfx (s : State) (d : Reg) (o : AddOut) :
    (s.writeBackArith d o).pfx = none := rfl
@[simp] theorem State.writeBackArith_halted (s : State) (d : Reg) (o : AddOut) :
    (s.writeBackArith d o).halted = s.halted := rfl
@[simp] theorem State.writeBackArith_dmem (s : State) (d : Reg) (o : AddOut) :
    (s.writeBackArith d o).dmem = s.dmem := rfl
@[simp] theorem State.writeBackArith_pmem (s : State) (d : Reg) (o : AddOut) :
    (s.writeBackArith d o).pmem = s.pmem := rfl
@[simp] theorem State.writeBackArith_params (s : State) (d : Reg) (o : AddOut) :
    (s.writeBackArith d o).params = s.params := rfl
@[simp] theorem State.writeBackArith_requests (s : State) (d : Reg) (o : AddOut) :
    (s.writeBackArith d o).requests = s.requests := rfl
@[simp] theorem State.writeBackArith_draws (s : State) (d : Reg) (o : AddOut) :
    (s.writeBackArith d o).draws = s.draws := rfl

@[simp] theorem State.compareDone_regs (s : State) (o : AddOut) :
    (s.compareDone o).regs = s.regs := rfl
@[simp] theorem State.compareDone_sp (s : State) (o : AddOut) : (s.compareDone o).sp = s.sp := rfl
@[simp] theorem State.compareDone_pc (s : State) (o : AddOut) :
    (s.compareDone o).pc = s.pc + 1 := rfl
@[simp] theorem State.compareDone_status (s : State) (o : AddOut) :
    (s.compareDone o).status = s.status.setSRArith o := rfl
@[simp] theorem State.compareDone_pfx (s : State) (o : AddOut) : (s.compareDone o).pfx = none := rfl
@[simp] theorem State.compareDone_halted (s : State) (o : AddOut) :
    (s.compareDone o).halted = s.halted := rfl
@[simp] theorem State.compareDone_dmem (s : State) (o : AddOut) :
    (s.compareDone o).dmem = s.dmem := rfl
@[simp] theorem State.compareDone_pmem (s : State) (o : AddOut) :
    (s.compareDone o).pmem = s.pmem := rfl
@[simp] theorem State.compareDone_params (s : State) (o : AddOut) :
    (s.compareDone o).params = s.params := rfl
@[simp] theorem State.compareDone_requests (s : State) (o : AddOut) :
    (s.compareDone o).requests = s.requests := rfl
@[simp] theorem State.compareDone_draws (s : State) (o : AddOut) :
    (s.compareDone o).draws = s.draws := rfl

@[simp] theorem State.writeBackLogic_regs (s : State) (d : Reg) (r : Word) :
    (s.writeBackLogic d r).regs = s.regs.set d r := rfl
@[simp] theorem State.writeBackLogic_sp (s : State) (d : Reg) (r : Word) :
    (s.writeBackLogic d r).sp = s.sp := rfl
@[simp] theorem State.writeBackLogic_pc (s : State) (d : Reg) (r : Word) :
    (s.writeBackLogic d r).pc = s.pc + 1 := rfl
@[simp] theorem State.writeBackLogic_status (s : State) (d : Reg) (r : Word) :
    (s.writeBackLogic d r).status = s.status.setSRLogic r (Config.drawC s.draws) (Config.drawV s.draws) := rfl
@[simp] theorem State.writeBackLogic_pfx (s : State) (d : Reg) (r : Word) :
    (s.writeBackLogic d r).pfx = none := rfl
@[simp] theorem State.writeBackLogic_halted (s : State) (d : Reg) (r : Word) :
    (s.writeBackLogic d r).halted = s.halted := rfl
@[simp] theorem State.writeBackLogic_dmem (s : State) (d : Reg) (r : Word) :
    (s.writeBackLogic d r).dmem = s.dmem := rfl
@[simp] theorem State.writeBackLogic_pmem (s : State) (d : Reg) (r : Word) :
    (s.writeBackLogic d r).pmem = s.pmem := rfl
@[simp] theorem State.writeBackLogic_params (s : State) (d : Reg) (r : Word) :
    (s.writeBackLogic d r).params = s.params := rfl
@[simp] theorem State.writeBackLogic_requests (s : State) (d : Reg) (r : Word) :
    (s.writeBackLogic d r).requests = s.requests := rfl
@[simp] theorem State.writeBackLogic_draws (s : State) (d : Reg) (r : Word) :
    (s.writeBackLogic d r).draws = s.draws + 1 := rfl

@[simp] theorem State.setByte_regs (s : State) (a : Word) (b : Byte) :
    (s.setByte a b).regs = s.regs := rfl
@[simp] theorem State.setByte_sp (s : State) (a : Word) (b : Byte) :
    (s.setByte a b).sp = s.sp := rfl
@[simp] theorem State.setByte_pc (s : State) (a : Word) (b : Byte) :
    (s.setByte a b).pc = s.pc := rfl
@[simp] theorem State.setByte_status (s : State) (a : Word) (b : Byte) :
    (s.setByte a b).status = s.status := rfl
@[simp] theorem State.setByte_pfx (s : State) (a : Word) (b : Byte) :
    (s.setByte a b).pfx = s.pfx := rfl
@[simp] theorem State.setByte_halted (s : State) (a : Word) (b : Byte) :
    (s.setByte a b).halted = s.halted := rfl
@[simp] theorem State.setByte_dmem (s : State) (a : Word) (b : Byte) :
    (s.setByte a b).dmem = s.dmem.write a.toNat b := rfl
@[simp] theorem State.setByte_pmem (s : State) (a : Word) (b : Byte) :
    (s.setByte a b).pmem = s.pmem := rfl
@[simp] theorem State.setByte_params (s : State) (a : Word) (b : Byte) :
    (s.setByte a b).params = s.params := rfl
@[simp] theorem State.setByte_requests (s : State) (a : Word) (b : Byte) :
    (s.setByte a b).requests = s.requests := rfl
@[simp] theorem State.setByte_draws (s : State) (a : Word) (b : Byte) :
    (s.setByte a b).draws = s.draws := rfl

@[simp] theorem State.dropWord_regs (s : State) : (s.dropWord).regs = s.regs := rfl
@[simp] theorem State.dropWord_sp (s : State) : (s.dropWord).sp = s.sp + stackStep := rfl
@[simp] theorem State.dropWord_pc (s : State) : (s.dropWord).pc = s.pc := rfl
@[simp] theorem State.dropWord_status (s : State) : (s.dropWord).status = s.status := rfl
@[simp] theorem State.dropWord_pfx (s : State) : (s.dropWord).pfx = s.pfx := rfl
@[simp] theorem State.dropWord_halted (s : State) : (s.dropWord).halted = s.halted := rfl
@[simp] theorem State.dropWord_dmem (s : State) : (s.dropWord).dmem = s.dmem := rfl
@[simp] theorem State.dropWord_pmem (s : State) : (s.dropWord).pmem = s.pmem := rfl
@[simp] theorem State.dropWord_params (s : State) : (s.dropWord).params = s.params := rfl
@[simp] theorem State.dropWord_requests (s : State) : (s.dropWord).requests = s.requests := rfl
@[simp] theorem State.dropWord_draws (s : State) : (s.dropWord).draws = s.draws := rfl

@[simp] theorem State.pastBoundary_regs (s : State) : (s.pastBoundary).regs = s.regs := rfl
@[simp] theorem State.pastBoundary_sp (s : State) : (s.pastBoundary).sp = s.sp := rfl
@[simp] theorem State.pastBoundary_pc (s : State) : (s.pastBoundary).pc = s.pc := rfl
@[simp] theorem State.pastBoundary_status (s : State) : (s.pastBoundary).status = s.status := rfl
@[simp] theorem State.pastBoundary_pfx (s : State) : (s.pastBoundary).pfx = s.pfx := rfl
@[simp] theorem State.pastBoundary_halted (s : State) : (s.pastBoundary).halted = s.halted := rfl
@[simp] theorem State.pastBoundary_dmem (s : State) : (s.pastBoundary).dmem = s.dmem := rfl
@[simp] theorem State.pastBoundary_pmem (s : State) : (s.pastBoundary).pmem = s.pmem := rfl
@[simp] theorem State.pastBoundary_params (s : State) : (s.pastBoundary).params = s.params := rfl
@[simp] theorem State.pastBoundary_requests (s : State) :
    (s.pastBoundary).requests = s.requests.tail := rfl
@[simp] theorem State.pastBoundary_draws (s : State) : (s.pastBoundary).draws = s.draws := rfl

@[simp] theorem State.placeAtPc_regs (s : State) (w : Word) : (s.placeAtPc w).regs = s.regs := rfl
@[simp] theorem State.placeAtPc_sp (s : State) (w : Word) : (s.placeAtPc w).sp = s.sp := rfl
@[simp] theorem State.placeAtPc_pc (s : State) (w : Word) : (s.placeAtPc w).pc = s.pc := rfl
@[simp] theorem State.placeAtPc_status (s : State) (w : Word) :
    (s.placeAtPc w).status = s.status := rfl
@[simp] theorem State.placeAtPc_pfx (s : State) (w : Word) : (s.placeAtPc w).pfx = s.pfx := rfl
@[simp] theorem State.placeAtPc_halted (s : State) (w : Word) :
    (s.placeAtPc w).halted = s.halted := rfl
@[simp] theorem State.placeAtPc_dmem (s : State) (w : Word) : (s.placeAtPc w).dmem = s.dmem := rfl
@[simp] theorem State.placeAtPc_pmem (s : State) (w : Word) :
    (s.placeAtPc w).pmem = s.pmem.write s.pc.toNat w := rfl
@[simp] theorem State.placeAtPc_params (s : State) (w : Word) :
    (s.placeAtPc w).params = s.params := rfl
@[simp] theorem State.placeAtPc_requests (s : State) (w : Word) :
    (s.placeAtPc w).requests = s.requests := rfl
@[simp] theorem State.placeAtPc_draws (s : State) (w : Word) :
    (s.placeAtPc w).draws = s.draws := rfl

@[simp] theorem State.resetTo_regs (l : Launch) (s : State) : (s.resetTo l).regs = l.regs := rfl
@[simp] theorem State.resetTo_sp (l : Launch) (s : State) : (s.resetTo l).sp = s.params.resetSp := rfl
@[simp] theorem State.resetTo_pc (l : Launch) (s : State) : (s.resetTo l).pc = s.params.resetPc := rfl
@[simp] theorem State.resetTo_status (l : Launch) (s : State) :
    (s.resetTo l).status = ⟨s.params.resetI, l.v, l.s, l.c, l.z, l.ac, l.az⟩ := rfl
@[simp] theorem State.resetTo_pfx (l : Launch) (s : State) : (s.resetTo l).pfx = none := rfl
@[simp] theorem State.resetTo_halted (l : Launch) (s : State) : (s.resetTo l).halted = false := rfl
@[simp] theorem State.resetTo_dmem (l : Launch) (s : State) : (s.resetTo l).dmem = l.dmem := rfl
@[simp] theorem State.resetTo_pmem (l : Launch) (s : State) : (s.resetTo l).pmem = s.pmem := rfl
@[simp] theorem State.resetTo_params (l : Launch) (s : State) : (s.resetTo l).params = s.params := rfl
@[simp] theorem State.resetTo_requests (l : Launch) (s : State) : (s.resetTo l).requests = s.requests := rfl
@[simp] theorem State.resetTo_draws (l : Launch) (s : State) : (s.resetTo l).draws = s.draws := rfl

@[simp] theorem Status.setSRArith_i (st : Status) (o : AddOut) : (st.setSRArith o).i = st.i := rfl
@[simp] theorem Status.setSRArith_v (st : Status) (o : AddOut) : (st.setSRArith o).v = o.ovf := rfl
@[simp] theorem Status.setSRArith_s (st : Status) (o : AddOut) :
    (st.setSRArith o).s = o.res.msb := rfl
@[simp] theorem Status.setSRArith_c (st : Status) (o : AddOut) :
    (st.setSRArith o).c = o.carry := rfl
@[simp] theorem Status.setSRArith_z (st : Status) (o : AddOut) :
    (st.setSRArith o).z = (o.res == 0) := rfl
@[simp] theorem Status.setSRArith_ac (st : Status) (o : AddOut) :
    (st.setSRArith o).ac = st.ac := rfl
@[simp] theorem Status.setSRArith_az (st : Status) (o : AddOut) :
    (st.setSRArith o).az = st.az := rfl

@[simp] theorem Status.setAR_i (st : Status) (o : AddOut) : (st.setAR o).i = st.i := rfl
@[simp] theorem Status.setAR_v (st : Status) (o : AddOut) : (st.setAR o).v = st.v := rfl
@[simp] theorem Status.setAR_s (st : Status) (o : AddOut) : (st.setAR o).s = st.s := rfl
@[simp] theorem Status.setAR_c (st : Status) (o : AddOut) : (st.setAR o).c = st.c := rfl
@[simp] theorem Status.setAR_z (st : Status) (o : AddOut) : (st.setAR o).z = st.z := rfl
@[simp] theorem Status.setAR_ac (st : Status) (o : AddOut) : (st.setAR o).ac = o.carry := rfl
@[simp] theorem Status.setAR_az (st : Status) (o : AddOut) : (st.setAR o).az = (o.res == 0) := rfl

@[simp] theorem Status.setSRLogic_i (st : Status) (r : Word) (fc fv : Bool) :
    (st.setSRLogic r fc fv).i = st.i := rfl
@[simp] theorem Status.setSRLogic_v (st : Status) (r : Word) (fc fv : Bool) :
    (st.setSRLogic r fc fv).v = fv := rfl
@[simp] theorem Status.setSRLogic_s (st : Status) (r : Word) (fc fv : Bool) :
    (st.setSRLogic r fc fv).s = r.msb := rfl
@[simp] theorem Status.setSRLogic_c (st : Status) (r : Word) (fc fv : Bool) :
    (st.setSRLogic r fc fv).c = fc := rfl
@[simp] theorem Status.setSRLogic_z (st : Status) (r : Word) (fc fv : Bool) :
    (st.setSRLogic r fc fv).z = (r == 0) := rfl
@[simp] theorem Status.setSRLogic_ac (st : Status) (r : Word) (fc fv : Bool) :
    (st.setSRLogic r fc fv).ac = st.ac := rfl
@[simp] theorem Status.setSRLogic_az (st : Status) (r : Word) (fc fv : Bool) :
    (st.setSRLogic r fc fv).az = st.az := rfl

@[simp] theorem Regs.get_set_same (g : Regs) (d : Reg) (v : Word) : (g.set d v).get d = v := by
  cases d <;> rfl

theorem Regs.get_set_ne (g : Regs) {d r : Reg} (v : Word) (h : r ≠ d) :
    (g.set d v).get r = g.get r := by
  cases d <;> cases r <;> first | rfl | exact absurd rfl h

/-- Two register files that read the same are the same. -/
theorem Regs.ext_get {g h : Regs} (e : ∀ r, g.get r = h.get r) : g = h := by
  cases g; cases h
  simp only [Regs.mk.injEq]
  exact ⟨e .r0, e .r1, e .r2, e .r3, e .r4, e .r5, e .r6⟩

@[simp] theorem Regs.set_get_same (g : Regs) (d : Reg) : g.set d (g.get d) = g := by
  cases d <;> rfl

end Sys2Proof.Machine
end

