-- ==== Sys2Proof/Laws/Memory.lean ====
section
/-! SUPPORT. The laws of a memory: reading after a write, and that every memory operation keeps the
canonical form. -/

namespace Sys2Proof.Machine

variable {w : Nat}

@[simp] theorem Mem.read?_nil (a : Nat) : Mem.read? ([] : Mem w) a = none := rfl

@[simp] theorem Mem.read?_cons (k : Nat) (x : BitVec w) (m : Mem w) (a : Nat) :
    Mem.read? ((k, x) :: m) a = if k = a then some x else Mem.read? m a := rfl

theorem Mem.wfFrom_cons {lo k : Nat} {x : BitVec w} {m : Mem w} :
    Mem.wfFrom lo ((k, x) :: m) = true ↔ lo ≤ k ∧ k < 65536 ∧ Mem.wfFrom (k + 1) m = true := by
  simp [Mem.wfFrom, and_assoc]

/-- Below the first address of a canonical memory nothing is listed. -/
theorem Mem.read?_of_lt {lo a : Nat} {m : Mem w} (hm : Mem.wfFrom lo m) (h : a < lo) :
    Mem.read? m a = none := by
  induction m generalizing lo with
  | nil => rfl
  | cons c m ih =>
    obtain ⟨k, x⟩ := c
    obtain ⟨hlo, -, hm⟩ := Mem.wfFrom_cons.1 hm
    rw [Mem.read?_cons, if_neg (by omega)]
    exact ih hm (by omega)

theorem Mem.wfFrom_write {lo a : Nat} {v : BitVec w} {m : Mem w} (hlo : lo ≤ a) (ha : a < 65536)
    (hm : Mem.wfFrom lo m) : Mem.wfFrom lo (Mem.write m a v) := by
  induction m generalizing lo with
  | nil => exact Mem.wfFrom_cons.2 ⟨hlo, ha, rfl⟩
  | cons c m ih =>
    obtain ⟨k, x⟩ := c
    obtain ⟨hk, hk', hm⟩ := Mem.wfFrom_cons.1 hm
    unfold Mem.write
    split
    · exact Mem.wfFrom_cons.2 ⟨hlo, ha, Mem.wfFrom_cons.2 ⟨by omega, hk', hm⟩⟩
    · split
      · subst a; exact Mem.wfFrom_cons.2 ⟨hlo, ha, hm⟩
      · exact Mem.wfFrom_cons.2 ⟨hk, hk', ih (by omega) hm⟩

/-- A write inside the address space keeps the canonical form. -/
theorem Mem.wf_write {a : Nat} {v : BitVec w} {m : Mem w} (ha : a < 65536) (hm : m.wf) :
    (Mem.write m a v).wf :=
  Mem.wfFrom_write (Nat.zero_le _) ha hm

/-- A read after a write to the same address gives the cell written, whatever the form of the
memory. -/
@[simp] theorem Mem.read?_write_same {a : Nat} {v : BitVec w} {m : Mem w} :
    Mem.read? (Mem.write m a v) a = some v := by
  induction m with
  | nil => simp [Mem.write]
  | cons c m ih =>
    obtain ⟨k, x⟩ := c
    unfold Mem.write
    split
    · simp
    · split
      · simp
      · rw [Mem.read?_cons, if_neg (by omega), ih]

/-- A write leaves every other address as it was, whatever the form of the memory. -/
theorem Mem.read?_write_ne {a b : Nat} {v : BitVec w} {m : Mem w} (h : b ≠ a) :
    Mem.read? (Mem.write m a v) b = Mem.read? m b := by
  induction m with
  | nil => rw [Mem.write, Mem.read?_cons, if_neg (Ne.symm h)]
  | cons c m ih =>
    obtain ⟨k, x⟩ := c
    unfold Mem.write
    split
    · rw [Mem.read?_cons, if_neg (Ne.symm h)]
    · split
      · subst a
        rw [Mem.read?_cons, if_neg (Ne.symm h), Mem.read?_cons, if_neg (Ne.symm h)]
      · rw [Mem.read?_cons, Mem.read?_cons, ih]

/-- Reset's memories are canonical. -/
theorem reset_memories_wf : State.reset.dmem.wf = true ∧ State.reset.pmem.wf = true := ⟨rfl, rfl⟩

/-- A reset lists what its launch values list and leaves program memory. -/
theorem State.resetTo_wf {l : Launch} {s : State} (hl : l.dmem.wf) (hs : s.pmem.wf) :
    (s.resetTo l).dmem.wf ∧ (s.resetTo l).pmem.wf := ⟨hl, hs⟩

theorem State.setByte_wf {s : State} {a : Word} {b : Byte} (h : s.dmem.wf) :
    (s.setByte a b).dmem.wf := Mem.wf_write a.isLt h

theorem State.placeAtPc_wf {s : State} {v : Word} (h : s.pmem.wf) : (s.placeAtPc v).pmem.wf :=
  Mem.wf_write s.pc.isLt h

/-- A reset keeps every program word (70_reset_and_hazards.md R310). -/
@[simp] theorem State.progAt_resetTo (l : Launch) (s : State) : (s.resetTo l).progAt = s.progAt := rfl

/-- The byte written is the byte read. -/
@[simp] theorem State.byteAt_setByte_same {s : State} {a : Word} {b : Byte} :
    (s.setByte a b).byteAt a = b := by
  simp [State.byteAt]

/-- A byte write leaves every other byte as it was. -/
theorem State.byteAt_setByte_ne {s : State} {a c : Word} {b : Byte} (h : c ≠ a) :
    (s.setByte a b).byteAt c = s.byteAt c := by
  simp only [State.byteAt, State.setByte_dmem]
  rw [Mem.read?_write_ne fun e => h (BitVec.eq_of_toNat_eq e)]

/-- The word placed at pc is the word the next fetch reads. -/
@[simp] theorem State.progAt_placeAtPc {s : State} {v : Word} :
    (s.placeAtPc v).progAt s.pc = v := by
  simp [State.progAt]

end Sys2Proof.Machine
end

