-- ==== Sys2Proof/Safety.lean ====
section
/-! DEFINITION. What counts as a good state and a safe run, in the terms claims use: the invariant of
the two memories, the absence of an interrupt request, and runs that meet no refusal
(spec/70_reset_and_hazards.md R315). -/

namespace Sys2Proof.Machine

/-- Both memories are in canonical form: equal contents are equal data. -/
def State.Inv (s : State) : Prop := s.dmem.wf = true ∧ s.pmem.wf = true

/-- The environment presents no request at any coming boundary: the hypothesis that 60_exceptions.md
R283 asks of a claim about code that runs with I = 1. -/
def State.Undisturbed (s : State) : Prop := ∀ present ∈ s.requests, present = false

/-- The machine has stepped from `s` to `t`. -/
def Stepped (s t : State) : Prop := step s = .next t

/-- `n` steps from `s` meet no refusal. Reaching the halted state, which has no step, is safe: it is
one of the three ways a run ends (70_reset_and_hazards.md R315). -/
def SafeRun (n : Nat) (s : State) : Prop := ∀ r, Host.Core.run Sys2Proof.core n s ≠ .refused r

end Sys2Proof.Machine
end

