-- ==== Sys2Proof/Laws/Ops.lean ====
section
/-! SUPPORT. For each shared operation, what it can do, said once: when it answers and with what, and
when it refuses. A meaning is taken apart with `bind_eq_ok` and these, never by unfolding. -/

namespace Sys2Proof.Machine

variable {α β : Type}

/-! ### Attempts and outcomes -/

theorem bind_eq_ok {x : Attempt α} {f : α → Attempt β} {b : β} :
    (x >>= f) = .ok b ↔ ∃ a, x = .ok a ∧ f a = .ok b := by
  cases x <;> simp [bind, Except.bind]

theorem bind_eq_error {x : Attempt α} {f : α → Attempt β} {r : Refusal} :
    (x >>= f) = .error r ↔ x = .error r ∨ ∃ a, x = .ok a ∧ f a = .error r := by
  cases x <;> simp [bind, Except.bind]

theorem bind_ok (a : α) (f : α → Attempt β) : ((.ok a : Attempt α) >>= f) = f a := rfl

theorem bind_error (r : Refusal) (f : α → Attempt β) :
    ((.error r : Attempt α) >>= f) = .error r := rfl

theorem pure_eq_ok {a b : α} : (pure a : Attempt α) = .ok b ↔ a = b := by
  simp [pure, Except.pure]

/-- A computation whose last line returns a value of what it found. -/
theorem bind_pure_eq_ok {x : Attempt α} {g : α → β} {b : β} :
    (x >>= fun a => (pure (g a) : Attempt β)) = .ok b ↔ ∃ a, x = .ok a ∧ b = g a := by
  simp only [bind_eq_ok, pure_eq_ok, eq_comm (a := b)]

theorem pure_ne_error {a : α} {r : Refusal} : (pure a : Attempt α) ≠ .error r := by
  simp [pure, Except.pure]

theorem outcome_eq_next {x : Attempt State} {t : State} :
    x.outcome = .next t ↔ x = .ok t := by
  cases x <;> simp [Attempt.outcome]

theorem outcome_eq_refused {x : Attempt State} {r : Refusal} :
    x.outcome = .refused r ↔ x = .error r := by
  cases x <;> simp [Attempt.outcome]

/-- An instruction never ends in a fault. -/
theorem outcome_ne_fault {x : Attempt State} {r : Fault} : x.outcome ≠ .fault r := by
  cases x <;> simp [Attempt.outcome]

/-! ### Register fields -/

@[simp] theorem regOfField_fieldOfReg (r : Reg) : regOfField (fieldOfReg r) = some r := by
  cases r <;> rfl

theorem regOfField_eq_none {f : RegField} : regOfField f = none ↔ f = 7 := by
  revert f; decide

theorem regOfField_eq_some {f : RegField} {r : Reg} :
    regOfField f = some r ↔ f = fieldOfReg r := by
  revert f; cases r <;> decide

theorem fieldOfReg_inj {a b : Reg} : fieldOfReg a = fieldOfReg b ↔ a = b := by
  cases a <;> cases b <;> decide

theorem fieldOfReg_ne_seven (r : Reg) : fieldOfReg r ≠ 7 := by cases r <;> decide

/-- A register field holds 7 or names a register. -/
theorem regField_cases (f : RegField) : f = 7 ∨ ∃ r, f = fieldOfReg r := by
  cases h : regOfField f with
  | none => exact .inl (regOfField_eq_none.1 h)
  | some r => exact .inr ⟨r, regOfField_eq_some.1 h⟩

theorem register_eq_ok {f : RegField} {r : Reg} : register f = .ok r ↔ f = fieldOfReg r := by
  rw [← regOfField_eq_some]
  unfold register
  cases regOfField f <;> simp

theorem register_eq_error {f : RegField} {e : Refusal} :
    register f = .error e ↔ f = 7 ∧ e = .registerField7 := by
  rw [← regOfField_eq_none]
  unfold register
  cases regOfField f <;> simp [eq_comm]

@[simp] theorem register_fieldOfReg (r : Reg) : register (fieldOfReg r) = .ok r :=
  register_eq_ok.2 rfl

theorem regValue_eq_ok {s : State} {f : RegField} {v : Word} :
    s.regValue f = .ok v ↔ ∃ r, f = fieldOfReg r ∧ v = s.regs.get r := by
  simp only [State.regValue, bind_pure_eq_ok, register_eq_ok]

theorem rsValue_eq_ok {s : State} {f : RegField} {v : Word} :
    s.rsValue f = .ok v ↔
      (s.zeroing = true ∧ v = 0) ∨
      (s.zeroing = false ∧ ∃ r, f = fieldOfReg r ∧ v = s.regs.get r) := by
  unfold State.rsValue
  cases s.zeroing <;> simp [regValue_eq_ok, eq_comm (a := (0#16))]

/-! ### Pending prefixes -/

@[simp] theorem zeroing_none {s : State} (h : s.pfx = none) : s.zeroing = false := by
  simp [State.zeroing, h]

@[simp] theorem zeroing_some {s : State} {p : Pfx} (h : s.pfx = some p) : s.zeroing = p.zero := by
  simp [State.zeroing, h]

theorem zeroing_eq_true {s : State} : s.zeroing = true ↔ ∃ p, s.pfx = some ⟨true, p⟩ := by
  cases h : s.pfx with
  | none => simp [State.zeroing, h]
  | some p => obtain ⟨z, p⟩ := p; simp [State.zeroing, h]

theorem checkExtendable_eq_ok {s : State} {u : Unit} :
    s.checkExtendable = .ok u ↔ s.zeroing = false := by
  unfold State.checkExtendable
  cases s.zeroing <;> simp

theorem checkZeroable_eq_ok {s : State} {u : Unit} :
    s.checkZeroable = .ok u ↔ s.pfx = none ∨ s.zeroing = true := by
  unfold State.checkZeroable
  cases hp : s.pfx <;> cases hz : s.zeroing <;> simp

theorem checkUnprefixed_eq_ok {s : State} {u : Unit} :
    s.checkUnprefixed = .ok u ↔ s.pfx = none := by
  unfold State.checkUnprefixed
  cases s.pfx <;> simp

theorem checkNoPrefixPending_eq_ok {s : State} {u : Unit} :
    s.checkNoPrefixPending = .ok u ↔ s.pfx = none := by
  unfold State.checkNoPrefixPending
  cases s.pfx <;> simp

/-- Under a prefix that its format has no form for, a check answers the one refusal. -/
theorem checkExtendable_eq_error {s : State} {r : Refusal} :
    s.checkExtendable = .error r ↔ s.zeroing = true ∧ r = .prefixUndocumented := by
  unfold State.checkExtendable
  cases s.zeroing <;> simp [eq_comm]

theorem checkZeroable_eq_error {s : State} {r : Refusal} :
    s.checkZeroable = .error r ↔
      (s.pfx ≠ none ∧ s.zeroing = false) ∧ r = .prefixUndocumented := by
  unfold State.checkZeroable
  cases hp : s.pfx <;> cases hz : s.zeroing <;> simp [eq_comm]

theorem checkUnprefixed_eq_error {s : State} {r : Refusal} :
    s.checkUnprefixed = .error r ↔ s.pfx ≠ none ∧ r = .prefixUndocumented := by
  unfold State.checkUnprefixed
  cases s.pfx <;> simp [eq_comm]

theorem checkNoPrefixPending_eq_error {s : State} {r : Refusal} :
    s.checkNoPrefixPending = .error r ↔ s.pfx ≠ none ∧ r = .prefixAfterPrefix := by
  unfold State.checkNoPrefixPending
  cases s.pfx <;> simp [eq_comm]

/-! ### The operands of each format -/

theorem operandsI1_eq_ok {s : State} {k : BitVec 5} {rs rd : RegField} {o : BaseOffset} :
    s.operandsI1 k rs rd = .ok o ↔
      ∃ b d, s.rsValue rs = .ok b ∧ rd = fieldOfReg d ∧ o = ⟨b + s.imm5 k, d⟩ := by
  simp only [State.operandsI1, bind_eq_ok, register_eq_ok, pure_eq_ok]
  constructor
  · rintro ⟨b, hb, d, hd, h⟩; exact ⟨b, d, hb, hd, h.symm⟩
  · rintro ⟨b, d, hb, hd, h⟩; exact ⟨b, hb, d, hd, h.symm⟩

theorem operandsI2_eq_ok {s : State} {rd : RegField} {d : Reg} :
    s.operandsI2 rd = .ok d ↔ s.zeroing = false ∧ rd = fieldOfReg d := by
  simp [State.operandsI2, bind_eq_ok, checkExtendable_eq_ok, register_eq_ok]

theorem operandsR1_eq_ok {s : State} {rn rs rd : RegField} {o : ThreeRegs} :
    s.operandsR1 rn rs rd = .ok o ↔
      (s.pfx = none ∨ s.zeroing = true) ∧ ∃ a n d, s.rsValue rs = .ok a ∧ rn = fieldOfReg n ∧
        rd = fieldOfReg d ∧ o = ⟨a, s.regs.get n, d⟩ := by
  simp only [State.operandsR1, bind_eq_ok, register_eq_ok, pure_eq_ok, checkZeroable_eq_ok,
    regValue_eq_ok]
  constructor
  · rintro ⟨-, hp, a, ha, -, ⟨n, hn, rfl⟩, d, hd, h⟩
    exact ⟨hp, a, n, d, ha, hn, hd, h.symm⟩
  · rintro ⟨hp, a, n, d, ha, hn, hd, h⟩
    exact ⟨(), hp, a, ha, _, ⟨n, hn, rfl⟩, d, hd, h.symm⟩

theorem operandsR2_eq_ok {s : State} {rs rd : RegField} {o : TwoRegs} :
    s.operandsR2 rs rd = .ok o ↔
      s.pfx = none ∧ ∃ r d, rs = fieldOfReg r ∧ rd = fieldOfReg d ∧ o = ⟨s.regs.get r, d⟩ := by
  simp only [State.operandsR2, bind_eq_ok, register_eq_ok, pure_eq_ok, checkUnprefixed_eq_ok,
    regValue_eq_ok]
  constructor
  · rintro ⟨-, hp, -, ⟨r, hr, rfl⟩, d, hd, h⟩; exact ⟨hp, r, d, hr, hd, h.symm⟩
  · rintro ⟨hp, r, d, hr, hd, h⟩; exact ⟨(), hp, _, ⟨r, hr, rfl⟩, d, hd, h.symm⟩

theorem operandsRd_eq_ok {s : State} {rd : RegField} {d : Reg} :
    s.operandsRd rd = .ok d ↔ s.pfx = none ∧ rd = fieldOfReg d := by
  simp [State.operandsRd, bind_eq_ok, checkUnprefixed_eq_ok, register_eq_ok]

/-! ### Memory accesses -/

theorem checkByte_eq_ok {s : State} {a : Word} {u : Unit} :
    s.checkByte a = .ok u ↔ s.dataPopulated a = true := by
  unfold State.checkByte
  cases s.dataPopulated a <;> simp

theorem checkWord_eq_ok {s : State} {a : Word} {u : Unit} :
    s.checkWord a = .ok u ↔
      a.getLsbD 0 = false ∧ s.dataPopulated a = true ∧ s.dataPopulated (a + 1) = true := by
  unfold State.checkWord
  cases a.getLsbD 0 <;> cases s.dataPopulated a <;> cases s.dataPopulated (a + 1) <;> simp

theorem checkByte_eq_error {s : State} {a : Word} {r : Refusal} :
    s.checkByte a = .error r ↔ s.dataPopulated a = false ∧ r = .unpopulatedAddress := by
  unfold State.checkByte
  cases s.dataPopulated a <;> simp [eq_comm]

theorem checkWord_eq_error {s : State} {a : Word} {r : Refusal} :
    s.checkWord a = .error r ↔
      (a.getLsbD 0 = true ∧ r = .misalignedWord) ∨
      (a.getLsbD 0 = false ∧ (s.dataPopulated a = false ∨ s.dataPopulated (a + 1) = false) ∧
        r = .unpopulatedAddress) := by
  unfold State.checkWord
  cases a.getLsbD 0 <;> cases s.dataPopulated a <;> cases s.dataPopulated (a + 1) <;> simp [eq_comm]

theorem readByte_eq_ok {s : State} {a : Word} {b : Byte} :
    s.readByte a = .ok b ↔ s.dataPopulated a = true ∧ b = s.byteAt a := by
  simp [State.readByte, bind_pure_eq_ok, checkByte_eq_ok, -bind_pure_comp]

theorem checkWord_eq_ok_unit {s : State} {a : Word} :
    (∃ u, s.checkWord a = .ok u) ↔ s.checkWord a = .ok () :=
  ⟨fun ⟨(), h⟩ => h, fun h => ⟨(), h⟩⟩

theorem readWord_eq_ok {s : State} {a v : Word} :
    s.readWord a = .ok v ↔ s.checkWord a = .ok () ∧
      v = joinBytes s.params.byteOrder (s.byteAt a) (s.byteAt (a + 1)) := by
  simp only [State.readWord, bind_pure_eq_ok, exists_and_right, checkWord_eq_ok_unit]

theorem writeByte_eq_ok {s t : State} {a : Word} {b : Byte} :
    s.writeByte a b = .ok t ↔ s.dataPopulated a = true ∧ t = s.setByte a b := by
  simp [State.writeByte, bind_pure_eq_ok, checkByte_eq_ok, -bind_pure_comp]

theorem writeWord_eq_ok {s t : State} {a v : Word} :
    s.writeWord a v = .ok t ↔ s.checkWord a = .ok () ∧
      t = (s.setByte a (firstByte s.params.byteOrder v)).setByte (a + 1)
        (secondByte s.params.byteOrder v) := by
  simp only [State.writeWord, bind_pure_eq_ok, exists_and_right, checkWord_eq_ok_unit]

theorem readProg_eq_ok {s : State} {a v : Word} :
    s.readProg a = .ok v ↔ s.progPopulated a = true ∧ v = s.progAt a := by
  unfold State.readProg
  cases s.progPopulated a <;> simp [eq_comm]

/-- A word split into its two bytes and joined is itself, in either byte order. -/
@[simp] theorem joinBytes_split (o : ByteOrder) (v : Word) :
    joinBytes o (firstByte o v) (secondByte o v) = v := by
  cases o <;> simp only [joinBytes, firstByte, secondByte] <;>
    · rw [BitVec.extractLsb'_append_extractLsb'_eq_extractLsb' (by omega)]
      simp

theorem pushWord_eq_ok {s t : State} {v : Word} :
    s.pushWord v = .ok t ↔ ∃ u, s.writeWord (s.sp - stackStep) v = .ok u ∧
      t = { u with sp := s.sp - stackStep } := by
  simp [State.pushWord, bind_pure_eq_ok, -bind_pure_comp]

theorem topWord_eq_ok {s : State} {v : Word} : s.topWord = .ok v ↔ s.readWord s.sp = .ok v :=
  Iff.rfl

theorem callTo_eq_ok {s t : State} {target : Word} :
    s.callTo target = .ok t ↔ ∃ u, s.pushWord (s.pc + 1) = .ok u ∧ t = u.retireTo target := by
  simp [State.callTo, bind_pure_eq_ok, -bind_pure_comp]

theorem loadWord_eq_ok {s t : State} {ea : Word} {d : Reg} :
    s.loadWord ea d = .ok t ↔ ∃ v, s.readWord ea = .ok v ∧ t = s.writeBack d v := by
  simp [State.loadWord, bind_pure_eq_ok, -bind_pure_comp]

theorem loadByteZ_eq_ok {s t : State} {ea : Word} {d : Reg} :
    s.loadByteZ ea d = .ok t ↔
      s.dataPopulated ea = true ∧ t = s.writeBack d ((s.byteAt ea).setWidth 16) := by
  simp only [State.loadByteZ, bind_eq_ok, pure_eq_ok, readByte_eq_ok]
  exact ⟨fun ⟨_, ⟨h, rfl⟩, e⟩ => ⟨h, e.symm⟩, fun ⟨h, e⟩ => ⟨_, ⟨h, rfl⟩, e.symm⟩⟩

theorem loadByteS_eq_ok {s t : State} {ea : Word} {d : Reg} :
    s.loadByteS ea d = .ok t ↔
      s.dataPopulated ea = true ∧ t = s.writeBack d ((s.byteAt ea).signExtend 16) := by
  simp only [State.loadByteS, bind_eq_ok, pure_eq_ok, readByte_eq_ok]
  exact ⟨fun ⟨_, ⟨h, rfl⟩, e⟩ => ⟨h, e.symm⟩, fun ⟨h, e⟩ => ⟨_, ⟨h, rfl⟩, e.symm⟩⟩

theorem storeWord_eq_ok {s t : State} {ea : Word} {d : Reg} :
    s.storeWord ea d = .ok t ↔ ∃ u, s.writeWord ea (s.regs.get d) = .ok u ∧ t = u.retire := by
  simp [State.storeWord, bind_pure_eq_ok, -bind_pure_comp]

theorem storeByte_eq_ok {s t : State} {ea : Word} {d : Reg} :
    s.storeByte ea d = .ok t ↔ s.dataPopulated ea = true ∧
      t = (s.setByte ea ((s.regs.get d).extractLsb' 0 8)).retire := by
  simp only [State.storeByte, bind_eq_ok, pure_eq_ok, writeByte_eq_ok]
  exact ⟨fun ⟨_, ⟨h, rfl⟩, e⟩ => ⟨h, e.symm⟩, fun ⟨h, e⟩ => ⟨_, ⟨h, rfl⟩, e.symm⟩⟩

/-! ### Interrupts and fetch -/

/-- The default instance refuses the entry. -/
@[simp] theorem enterInterrupt_default (s : State) :
    enterInterrupt defaultIntModel s = .error .interruptEntryUnspecified := rfl

/-- The default instance refuses the return. -/
@[simp] theorem returnFromInterrupt_default (s : State) :
    returnFromInterrupt defaultIntModel s = .error .retiUnspecified := rfl

/-- A request is accepted under exactly the gating of 60_exceptions.md R284, whatever the instance. -/
theorem accepts_eq_true {ε : Type} {m : IntModel ε} {env : ε} {s : State} :
    m.accepts env s = true ↔
      m.request env s = true ∧ s.status.i = true ∧ s.pfx = none ∧ s.halted = false := by
  simp [IntModel.accepts, and_assoc]

/-- The input spent at a boundary decides nothing after it. -/
@[simp] theorem accepts_default_pastBoundary (s : State) :
    defaultIntModel.accepts s.requestPresent s.pastBoundary = s.acceptsRequest := rfl

@[simp] theorem fetch_pastBoundary (s : State) : s.pastBoundary.fetch = s.fetch := rfl

/-- Under the default instance an instruction is its own meaning. -/
@[simp] theorem execUnder_default (i : Instr) (s : State) :
    execUnder defaultIntModel i s = exec i s := by
  unfold execUnder
  split
  · next h => subst h; rfl
  · rfl

theorem execUnder_reti {ε : Type} (m : IntModel ε) (s : State) :
    execUnder m .reti s = execRetiUnder m s := rfl

theorem execUnder_of_ne {ε : Type} (m : IntModel ε) {i : Instr} (s : State) (h : i ≠ .reti) :
    execUnder m i s = exec i s := if_neg h

theorem execRetiUnder_eq_next {ε : Type} {m : IntModel ε} {s t : State} :
    execRetiUnder m s = .next t ↔ s.pfx = none ∧ m.resume s = .ok t := by
  simp [execRetiUnder, outcome_eq_next, bind_eq_ok, checkUnprefixed_eq_ok, returnFromInterrupt]

theorem fetch_eq_ok {s : State} {i : Instr} :
    s.fetch = .ok i ↔ s.progPopulated s.pc = true ∧ i = decode s.pfx (s.progAt s.pc) := by
  simp only [State.fetch, bind_eq_ok, pure_eq_ok, readProg_eq_ok]
  exact ⟨fun ⟨_, ⟨h, rfl⟩, e⟩ => ⟨h, e.symm⟩, fun ⟨h, e⟩ => ⟨_, ⟨h, rfl⟩, e.symm⟩⟩

theorem fetch_eq_error {s : State} {r : Refusal} :
    s.fetch = .error r ↔ s.progPopulated s.pc = false ∧ r = .unpopulatedAddress := by
  simp only [State.fetch, bind_eq_error, pure_ne_error, and_false, exists_false, or_false]
  unfold State.readProg
  cases s.progPopulated s.pc <;> simp [eq_comm]

/-- Everything a step can do under an instance when it answers a next state: an accepted request is
entered, or the instruction fetched runs. -/
theorem stepUnder_eq_next {ε : Type} {m : IntModel ε} {env : ε} {s t : State} :
    stepUnder m env s = .next t ↔ s.halted = false ∧
      ((m.accepts env s = true ∧ m.enter s = .ok t) ∨
        (m.accepts env s = false ∧ ∃ i, s.fetch = .ok i ∧ execUnder m i s = .next t)) := by
  unfold stepUnder
  cases s.halted <;> cases m.accepts env s <;> simp [enterInterrupt, outcome_eq_next]
  cases s.fetch <;> simp

/-- Everything a step can do when it answers a next state. -/
theorem step_eq_next {s t : State} :
    step s = .next t ↔ s.halted = false ∧ s.acceptsRequest = false ∧
      ∃ i, s.fetch = .ok i ∧ exec i s.pastBoundary = .next t := by
  have h : ∀ u, defaultIntModel.enter u ≠ .ok t := by simp [defaultIntModel]
  simp [step, stepUnder_eq_next, h]

/-! ### Reset and events -/

/-- The state right after the first reset is what a reset of it gives. -/
theorem reset_resetTo_chosen : State.reset.resetTo .chosen = State.reset := rfl

/-- The machine's step is the default instance at a boundary. -/
theorem step_eq_advance (s : State) :
    step s = advance defaultIntModel (.boundary s.requestPresent) s.pastBoundary := rfl

/-- Everything that can come of an event when it answers a next state. -/
theorem advance_eq_next {ε : Type} {m : IntModel ε} {e : Event ε} {s t : State} :
    advance m e s = .next t ↔
      (∃ env, e = .boundary env ∧ stepUnder m env s = .next t) ∨ ∃ l, e = .reset l ∧ t = s.resetTo l := by
  cases e <;> simp [advance, eq_comm]

/-! ### An undisturbed environment -/

/-- No request is accepted where the environment presents none. -/
theorem State.Undisturbed.acceptsRequest {s : State} (h : s.Undisturbed) : s.acceptsRequest = false := by
  unfold State.Undisturbed at h
  cases hr : s.requests <;>
    simp_all [State.acceptsRequest, IntModel.accepts, defaultIntModel, State.requestPresent]

/-- It stays so past a boundary. -/
theorem State.Undisturbed.pastBoundary {s : State} (h : s.Undisturbed) : s.pastBoundary.Undisturbed :=
  fun p hp => h p (List.mem_of_mem_tail hp)

end Sys2Proof.Machine
end

