-- ==== Sys2Proof/Certificates/Slice0/Obligations.lean ====
section
/-! DEFINITION. The statements for the provers, each about the machine as spec/ gives it. The `Claim`
definitions are their vocabulary, written from the rules and not from the meanings they are about.
A statement that rests on a decision the spec marks as its own says so. -/

open Sys2Proof Sys2Proof.Machine

namespace Sys2Proof.Claim

/-! ### Operands -/

/-- The value `rs_val` that a format R1 instruction reads through its Rs field, where it has a
documented form: the register with no prefix pending, 0 under `pfixz_k` whatever the field holds
(00_scope.md R8, 40_prefix.md R125). -/
def R1Base (s : State) (rs : RegField) (v : Word) : Prop :=
  (s.pfx = none ∧ ∃ r, rs = fieldOfReg r ∧ v = s.regs.get r) ∨ (∃ p, s.pfx = some ⟨true, p⟩ ∧ v = 0)

/-- The value `rs_val` that a format I1 instruction reads through its Rs field: the register, also
under `pfix_k`; 0 under `pfixz_k` whatever the field holds (00_scope.md R8, 40_prefix.md R124, R125). -/
def I1Base (s : State) (rs : RegField) (v : Word) : Prop :=
  ((∀ p, s.pfx ≠ some ⟨true, p⟩) ∧ ∃ r, rs = fieldOfReg r ∧ v = s.regs.get r) ∨
    (∃ p, s.pfx = some ⟨true, p⟩ ∧ v = 0)

/-- No prefix is pending, or `pfix_k` is: what formats I2 and J run under (40_prefix.md R124, R128). -/
def Extendable (s : State) : Prop := ∀ p, s.pfx ≠ some ⟨true, p⟩

/-- The immediate: `plain` with no prefix pending; else the 16 bits p_imm followed by the low five bits
of the core field (40_prefix.md R122, decision D1). -/
def imm {n : Nat} (s : State) (plain : Word) (field : BitVec n) : Word :=
  match s.pfx with
  | none => plain
  | some p => p.imm ++ field.setWidth 5

/-- A PC-relative target: pc + BR_BASE + offset modulo 65536 (44_branch.md R240, decision D8). -/
def target (s : State) (a : BitVec 9) : Word :=
  s.pc + (match s.params.brBase with | .branchWord => 0 | .nextWord => 1) +
    imm s (a.signExtend 16) a

/-! ### Results -/

/-- `s` after a core instruction that wrote `v` to `d` and nothing else. -/
def wrote (s : State) (d : Reg) (v : Word) : State :=
  { s with regs := s.regs.set d v, pc := s.pc + 1, pfx := none }

/-- The exact integer is no signed 16-bit number. -/
def overflows (x : Int) : Bool := decide (x < -32768 ∨ 32767 < x)

/-- SR after an adder result: Z zero, S sign, C carry, V overflow (10_state.md R30). -/
def compared (st : Status) (res : Word) (carry ovf : Bool) : Status :=
  { st with z := decide (res = 0), s := decide (res.toInt < 0), c := carry, v := ovf }

/-- SR and AR after an adder result (10_state.md R26, R30). -/
def summed (st : Status) (res : Word) (carry ovf : Bool) : Status :=
  { compared st res carry ovf with ac := carry, az := decide (res = 0) }

/-- `s` after an instruction that wrote an adder result to `d`, with SR and AR. -/
def wroteSum (s : State) (d : Reg) (res : Word) (carry ovf : Bool) : State :=
  { s with regs := s.regs.set d res, status := summed s.status res carry ovf, pc := s.pc + 1,
           pfx := none }

/-- The outcome of an instruction that wrote a logic result to `d`: Z and S from the result, C and V
some values `c` and `v` that the spec does not fix, AC and AZ kept (10_state.md R31). -/
def WroteLogic (o : Host.Outcome State Fault Refusal) (s : State) (d : Reg) (res : Word) : Prop :=
  ∃ c v : Bool, o = .next
    { s with regs := s.regs.set d res,
             status := { s.status with z := decide (res = 0), s := decide (res.toInt < 0), c := c, v := v },
             pc := s.pc + 1, pfx := none, draws := s.draws + 1 }

/-! ### Memory -/

/-- A word access may go to `a`: even, and both bytes populated (20_memory.md R56, R50). -/
def WordFits (s : State) (a : Word) : Prop :=
  a.toNat % 2 = 0 ∧ s.dataPopulated a = true ∧ s.dataPopulated (a + 1) = true

/-- The word at `a` in the byte order of the machine (20_memory.md R54). -/
def wordAt (s : State) (a : Word) : Word :=
  match s.params.byteOrder with
  | .little => s.byteAt (a + 1) ++ s.byteAt a
  | .big => s.byteAt a ++ s.byteAt (a + 1)

/-- `t` reads as `s` but for the two bytes of `v` at `a`, in the byte order of the machine. -/
def HasWord (s t : State) (a v : Word) : Prop :=
  wordAt t a = v ∧ ∀ b, b ≠ a → b ≠ a + 1 → t.byteAt b = s.byteAt b

/-- `t` reads as `s` but for the byte `v` at `a`. -/
def HasByte (s t : State) (a : Word) (v : Byte) : Prop :=
  t.byteAt a = v ∧ ∀ b, b ≠ a → t.byteAt b = s.byteAt b

/-- The outcome of a store of the word `v` at `a`: nothing changes but the two bytes, pc and PFX. -/
def StoredWord (o : Host.Outcome State Fault Refusal) (s : State) (a v : Word) : Prop :=
  ∃ m, o = .next { s with dmem := m, pc := s.pc + 1, pfx := none } ∧ HasWord s { s with dmem := m } a v

/-- The outcome of a store of the low byte of `v` at `a`: nothing changes but that byte, pc and PFX. -/
def StoredByte (o : Host.Outcome State Fault Refusal) (s : State) (a v : Word) : Prop :=
  ∃ m, o = .next { s with dmem := m, pc := s.pc + 1, pfx := none } ∧
    HasByte s { s with dmem := m } a (v.setWidth 8)

/-- The outcome of a push of `v` that then goes to `pc'`: SP drops by 2 and the word lies there. -/
def Pushed (o : Host.Outcome State Fault Refusal) (s : State) (v pc' : Word) : Prop :=
  ∃ m, o = .next { s with dmem := m, sp := s.sp - 2, pc := pc', pfx := none } ∧
    HasWord s { s with dmem := m } (s.sp - 2) v

/-! ### Which instruction does what -/

/-- The instructions that update SR (10_state.md R26, decision D12). -/
def updatesSR : Instr → Bool
  | .addKr .. | .subKr .. | .addRrr .. | .adcRrr .. | .subRrr .. | .subcRrr .. | .negRr .. => true
  | .cmpRk .. | .cmpRr .. => true
  | .andKr .. | .orKr .. | .orRrr .. | .andRrr .. | .xorRrr .. | .notRr .. => true
  | _ => false

/-- The instructions that update AR (10_state.md R26, decision D12). -/
def updatesAR : Instr → Bool
  | .addKr .. | .subKr .. | .addRrr .. | .adcRrr .. | .subRrr .. | .subcRrr .. | .negRr .. => true
  | _ => false

/-- The logic instructions (10_state.md R31). -/
def isLogic : Instr → Bool
  | .andKr .. | .orKr .. | .orRrr .. | .andRrr .. | .xorRrr .. | .notRr .. => true
  | _ => false

/-- The destination register field of an instruction, where it has one (30_encoding.md R104: the last
operand, but not of compares, stores, `push`, `jmp` and `call`). -/
def destination : Instr → Option RegField
  | .leaMr _ _ rd | .movwMr _ _ rd | .movzbMr _ _ rd | .movsbMr _ _ rd => some rd
  | .movKr _ rd | .addKr _ rd | .subKr _ rd | .andKr _ rd | .orKr _ rd | .leaSr _ rd => some rd
  | .movwSr _ rd | .movsbSr _ rd | .movzbSr _ rd => some rd
  | .addRrr _ _ rd | .adcRrr _ _ rd | .subRrr _ _ rd | .subcRrr _ _ rd => some rd
  | .orRrr _ _ rd | .andRrr _ _ rd | .xorRrr _ _ rd => some rd
  | .movwNr _ _ rd | .movzbNr _ _ rd | .movsbNr _ _ rd | .selCrrr _ _ _ rd => some rd
  | .setCr _ rd | .movRr _ rd | .zextRr _ rd | .sextRr _ rd | .bswapRr _ rd | .sextwRr _ rd => some rd
  | .movwPr _ rd | .lsrRr _ rd | .lslRr _ rd | .asrRr _ rd | .negRr _ rd | .notRr _ rd => some rd
  | .popR rd | .movwAr _ rd | .movzbAr _ rd | .movsbAr _ rd => some rd
  | _ => none

/-- The data address of an instruction that accesses a word, from the operands its meaning reads: the
effective address of the word loads and stores, the stack slot of `push`, `pop`, `call`, `ret`; none
when the operands are refused or the instruction accesses no word (20_memory.md R57). -/
def wordAddress (i : Instr) (s : State) : Option Word :=
  match i with
  | .movwMr k rs rd | .movwRm k rs rd => (s.operandsI1 k rs rd).toOption.map BaseOffset.ea
  | .movwAr a rd | .movwRa a rd => (register rd).toOption.map fun _ => a
  | .movwSr k rd | .movwRs k rd => (s.operandsI2 rd).toOption.map fun _ => s.spAddress k
  | .movwNr rn rs rd | .movwRn rn rs rd => (s.operandsR1 rn rs rd).toOption.map ThreeRegs.ea
  | .pushR rd | .callR rd => (s.operandsRd rd).toOption.map fun _ => s.sp - 2
  | .popR rd => (s.operandsRd rd).toOption.map fun _ => s.sp
  | .callK _ => s.checkExtendable.toOption.map fun _ => s.sp - 2
  | .ret => s.checkUnprefixed.toOption.map fun _ => s.sp
  | _ => none

/-- The data address of an instruction that accesses a byte, from the operands its meaning reads
(20_memory.md R57). -/
def byteAddress (i : Instr) (s : State) : Option Word :=
  match i with
  | .movzbMr k rs rd | .movsbMr k rs rd | .movbRm k rs rd =>
    (s.operandsI1 k rs rd).toOption.map BaseOffset.ea
  | .movzbAr a rd | .movsbAr a rd | .movbRa a rd => (register rd).toOption.map fun _ => a
  | .movzbSr k rd | .movsbSr k rd | .movbRs k rd =>
    (s.operandsI2 rd).toOption.map fun _ => s.spAddress k
  | .movzbNr rn rs rd | .movsbNr rn rs rd | .movbRn rn rs rd =>
    (s.operandsR1 rn rs rd).toOption.map ThreeRegs.ea
  | _ => none

/-- The instructions that store to data memory (20_memory.md R57). -/
def stores : Instr → Bool
  | .movwRm .. | .movbRm .. | .movwRa .. | .movbRa .. | .movwRs .. | .movbRs .. => true
  | .movwRn .. | .movbRn .. | .pushR .. | .callK .. | .callR .. => true
  | _ => false

/-- The test of the SR flags that a condition stands for (30_encoding.md R94, the column "SR Flags"). -/
def formula (st : Status) : Cond → Bool
  | .eq => st.z
  | .ne => !st.z
  | .uge => st.c
  | .ult => !st.c
  | .ge => st.s == st.v
  | .lt => st.s != st.v
  | .ugt => st.c && !st.z
  | .gt => (st.s == st.v) && !st.z

/-- What a condition says of the two operands of a compare (30_encoding.md R94, the descriptions). -/
def relation : Cond → Word → Word → Bool
  | .eq, a, b => decide (a = b)
  | .ne, a, b => decide (a ≠ b)
  | .uge, a, b => decide (b.toNat ≤ a.toNat)
  | .ult, a, b => decide (a.toNat < b.toNat)
  | .ge, a, b => decide (b.toInt ≤ a.toInt)
  | .lt, a, b => decide (a.toInt < b.toInt)
  | .ugt, a, b => decide (b.toNat < a.toNat)
  | .gt, a, b => decide (b.toInt < a.toInt)

/-- The whole rule of a two-register format R2 instruction that writes only a general register: its
word, its result, no flag, and its two refusals (41_arith_logic.md, 42_moves.md: "Encoding",
"Pseudocode", "Flags written: none", "Refusals"). -/
def R2Move (mk : RegField → RegField → Instr) (base : Word) (f : Word → Word) : Prop :=
  (∀ rs rd : RegField,
    encode (mk rs rd) = [base ||| (rs.setWidth 16 <<< 3) ||| rd.setWidth 16]) ∧
  (∀ (s : State) (r d : Reg), s.pfx = none →
    exec (mk (fieldOfReg r) (fieldOfReg d)) s = .next (wrote s d (f (s.regs.get r)))) ∧
  (∀ (s : State) (rs rd : RegField), s.pfx ≠ none → exec (mk rs rd) s = .refused .prefixUndocumented) ∧
  (∀ (s : State) (rs rd : RegField), s.pfx = none → rs = 7 ∨ rd = 7 →
    exec (mk rs rd) s = .refused .registerField7)

/-- Two states that a program cannot tell apart (10_state.md R32): they agree on everything but AZ and
the two flags S and V, and on S they differ exactly when they differ on V. -/
def Alike (s t : State) : Prop :=
  t = { s with status := { s.status with s := t.status.s, v := t.status.v, az := t.status.az } } ∧
    (s.status.s == s.status.v) = (t.status.s == t.status.v)

/-- Two outcomes alike: the same refusal or fault, or next states alike. -/
def AlikeOutcomes : Host.Outcome State Fault Refusal → Host.Outcome State Fault Refusal → Prop
  | .next s, .next t => Alike s t
  | .fault a, .fault b => a = b
  | .refused a, .refused b => a = b
  | _, _ => False

end Sys2Proof.Claim

open Sys2Proof.Claim

/-! ### Encoding -/

/-- A few words written out from 30_encoding.md R96 to R99 and 40_prefix.md R126 decode to the
instructions they stand for. -/
def Obligations.SpecWordsDecode : Prop :=
  decode none 0b1111000010010001 = .pfixK 0x091 ∧
  decode none 0b0100100010001010 = .movwMr 2 1 2 ∧
  decode (some ⟨true, 0x400⟩) 0b0100100010000011 = .movwAr 0x8002 3 ∧
  decode none 0b1000111111111001 = .cmpRk 0xFF 1 ∧
  decode none 0b1110001111111101 = .brCk .ne 0x1FD ∧
  decode none 0b0011111000000101 = .callK 5 ∧
  decode none 0b0010011010001011 = .subcRrr 2 1 3 ∧
  decode none 0b0001011010001011 = .selCrrr .ult 2 1 3 ∧
  decode none 0b0000010111111011 = .setCr .uge 3 ∧
  decode none 0b0000000000000000 = .movRr 0 0 ∧
  decode none 0b0000010101111000 = .reservedR2any101 ∧
  decode none 0b0000100110111111 = .halt

/-- DECODE AND ENCODE AGREE, for every instruction with every operand: the one word of an instruction
that is no prefixed form decodes to it; the two words of a prefixed form decode, the second under the
prefix the first leaves, to its `pfixz_k` and to it. -/
def Obligations.DecodeEncodeRoundTrip : Prop :=
  ∀ i : Instr, ∃ before : List Instr,
    decodeWords none (encode i) = before ++ [i] ∧
      (if i.format = .prefixedForm then ∃ p, before = [.pfixzK p] else before = [])

/-- The words of 30_encoding.md R81, R84 to R86 and R96 to R99, in the spec's own arithmetic of words,
for every instruction with fields but the two-word absolute forms (`AbsoluteLoadsStores`): which bits
are Rs, which Rd, which Rn, which the immediate. -/
def Obligations.EncodingTables : Prop :=
  (∀ p : BitVec 11, encode (.pfixK p) = [0xF000 ||| p.setWidth 16] ∧
    encode (.pfixzK p) = [0xF800 ||| p.setWidth 16]) ∧
  (∀ (k : BitVec 5) (rs rd : RegField),
    let low : Word := (k.setWidth 16 <<< 6) ||| (rs.setWidth 16 <<< 3) ||| rd.setWidth 16
    encode (.leaMr k rs rd) = [0x4000 ||| low] ∧ encode (.movwMr k rs rd) = [0x4800 ||| low] ∧
    encode (.movzbMr k rs rd) = [0x5000 ||| low] ∧ encode (.movsbMr k rs rd) = [0x5800 ||| low] ∧
    encode (.movwRm k rs rd) = [0x6000 ||| low] ∧ encode (.movbRm k rs rd) = [0x6800 ||| low]) ∧
  (∀ (k : BitVec 8) (rd : RegField),
    let low : Word := (k.setWidth 16 <<< 3) ||| rd.setWidth 16
    encode (.movKr k rd) = [0x8000 ||| low] ∧ encode (.cmpRk k rd) = [0x8800 ||| low] ∧
    encode (.addKr k rd) = [0x9000 ||| low] ∧ encode (.subKr k rd) = [0x9800 ||| low] ∧
    encode (.andKr k rd) = [0xA000 ||| low] ∧ encode (.orKr k rd) = [0xA800 ||| low] ∧
    encode (.leaSr k rd) = [0xB000 ||| low] ∧ encode (.movwSr k rd) = [0xB800 ||| low] ∧
    encode (.movsbSr k rd) = [0xC000 ||| low] ∧ encode (.movzbSr k rd) = [0xC800 ||| low] ∧
    encode (.movwRs k rd) = [0xD000 ||| low] ∧ encode (.movbRs k rd) = [0xD800 ||| low]) ∧
  (∀ (rn rs rd : RegField),
    let low : Word := (rn.setWidth 16 <<< 6) ||| (rs.setWidth 16 <<< 3) ||| rd.setWidth 16
    encode (.addRrr rn rs rd) = [0x2000 ||| low] ∧ encode (.adcRrr rn rs rd) = [0x2200 ||| low] ∧
    encode (.subRrr rn rs rd) = [0x2400 ||| low] ∧ encode (.subcRrr rn rs rd) = [0x2600 ||| low] ∧
    encode (.orRrr rn rs rd) = [0x2800 ||| low] ∧ encode (.andRrr rn rs rd) = [0x2A00 ||| low] ∧
    encode (.xorRrr rn rs rd) = [0x2C00 ||| low] ∧ encode (.movwNr rn rs rd) = [0x3200 ||| low] ∧
    encode (.movzbNr rn rs rd) = [0x3400 ||| low] ∧ encode (.movsbNr rn rs rd) = [0x3600 ||| low] ∧
    encode (.movwRn rn rs rd) = [0x3800 ||| low] ∧ encode (.movbRn rn rs rd) = [0x3A00 ||| low] ∧
    ∀ cc, encode (.selCrrr cc rn rs rd) = [0x1000 ||| (cc.code.setWidth 16 <<< 9) ||| low]) ∧
  (∀ a : BitVec 9, encode (.jmpK a) = [0x3C00 ||| a.setWidth 16] ∧
    encode (.callK a) = [0x3E00 ||| a.setWidth 16] ∧
    ∀ cc, encode (.brCk cc a) = [0xE000 ||| (cc.code.setWidth 16 <<< 9) ||| a.setWidth 16]) ∧
  (∀ cc rd, encode (.setCr cc rd) = [0x01C0 ||| (cc.code.setWidth 16 <<< 9) ||| rd.setWidth 16]) ∧
  (∀ (rs rd : RegField),
    let low : Word := (rs.setWidth 16 <<< 3) ||| rd.setWidth 16
    encode (.movRr rs rd) = [0x0000 ||| low] ∧ encode (.cmpRr rs rd) = [0x0200 ||| low] ∧
    encode (.zextRr rs rd) = [0x0400 ||| low] ∧ encode (.sextRr rs rd) = [0x0600 ||| low] ∧
    encode (.bswapRr rs rd) = [0x0800 ||| low] ∧ encode (.sextwRr rs rd) = [0x0A00 ||| low] ∧
    encode (.movwPr rs rd) = [0x0E00 ||| low] ∧ encode (.lsrRr rs rd) = [0x0040 ||| low] ∧
    encode (.lslRr rs rd) = [0x0240 ||| low] ∧ encode (.asrRr rs rd) = [0x0440 ||| low] ∧
    encode (.negRr rs rd) = [0x0A40 ||| low] ∧ encode (.notRr rs rd) = [0x0C40 ||| low]) ∧
  (∀ rd : RegField,
    encode (.jmpR rd) = [0x0100 ||| rd.setWidth 16] ∧ encode (.callR rd) = [0x0300 ||| rd.setWidth 16] ∧
    encode (.pushR rd) = [0x0500 ||| rd.setWidth 16] ∧ encode (.popR rd) = [0x0700 ||| rd.setWidth 16] ∧
    encode (.movTr rd) = [0x0D00 ||| rd.setWidth 16] ∧ encode (.movRt rd) = [0x0F00 ||| rd.setWidth 16])

/-- The rows of the opcode table partition the words: every word fits exactly one of the 76 rows, and
it is the row of the instruction it decodes to (30_encoding.md opening and R95). A pending prefix
changes that instruction only where it is `pfixz_k` and the word an I1 load or store, bits 15:11 from
01001 to 01101, the absolute forms of `AbsoluteLoadsStores` (30_encoding.md R107, 40_prefix.md R124 to
R126). -/
def Obligations.WordsFallInOneRow : Prop :=
  (∀ w : Word, ∃ row ∈ opcodeRows, row.name = (decode none w).mnemonic ∧
    ∀ other ∈ opcodeRows, w &&& other.mask = other.fit ↔ other = row) ∧
  (∀ (pfx : Option Pfx) (w : Word),
    (∀ p, pfx ≠ some ⟨true, p⟩) ∨
      w.extractLsb' 11 5 ∉ [0b01001#5, 0b01010#5, 0b01011#5, 0b01100#5, 0b01101#5] →
    decode pfx w = decode none w)

/-- Don't-care bits do not reach the instruction, under any pending prefix (30_encoding.md R93, decision
D18): words that differ only in bits 5:3 are the same `set`, `jmp Rd`, `call Rd`, `push`, `pop`; words
that differ only in bits 5:0 are the same `ret`, `reti`, `dint`, `eint`, `halt`. -/
def Obligations.DontCareBitsIgnored : Prop :=
  ∀ (pfx : Option Pfx) (hi : BitVec 10) (x y rd : BitVec 3),
    (hi.extractLsb' 6 4 = 0 ∧ hi.extractLsb' 0 3 = 0b111 ∨ hi ∈ [0x004, 0x00C, 0x014, 0x01C] →
      decode pfx (hi ++ x ++ rd) = decode pfx (hi ++ y ++ rd)) ∧
    (hi ∈ [0x006, 0x00E, 0x016, 0x01E, 0x026] → ∀ z : BitVec 3,
      decode pfx (hi ++ x ++ rd) = decode pfx (hi ++ y ++ z))

/-! ### Prefixes -/

/-- The prefix instructions (40_prefix.md R120, R121): the word, the pending prefix they leave, pc + 1,
nothing else, and the refusal after a prefix; `p_imm = 0` yields the low five bits of a core field. -/
def Obligations.PrefixWords : Prop :=
  ∀ p : BitVec 11,
    encode (.pfixK p) = [0xF000 ||| p.setWidth 16] ∧ encode (.pfixzK p) = [0xF800 ||| p.setWidth 16] ∧
    (∀ s : State, s.pfx = none →
      exec (.pfixK p) s = .next { s with pfx := some ⟨false, p⟩, pc := s.pc + 1 } ∧
      exec (.pfixzK p) s = .next { s with pfx := some ⟨true, p⟩, pc := s.pc + 1 }) ∧
    (∀ s : State, s.pfx ≠ none →
      exec (.pfixK p) s = .refused .prefixAfterPrefix ∧
      exec (.pfixzK p) s = .refused .prefixAfterPrefix) ∧
    (∀ field : Word, imm16 0 field = field &&& 0b11111)

/-- The composed immediate has p_imm in bits 15:5 and the low five bits of the core field in bits 4:0,
and ignores the field's higher bits (40_prefix.md R122, decision D1). -/
def Obligations.ImmediateComposition : Prop :=
  ∀ (p : BitVec 11) (field : Word),
    imm16 p field = (p.setWidth 16 <<< 5) ||| (field &&& 0b11111) ∧
      imm16 p field = p ++ field.extractLsb' 0 5

/-- A prefix word and its core word, one step each, load a 16-bit constant: from any running,
undisturbed state with `pfix_k V[15:5]` and `mov K, Rd` with `V[4:0]` in the low bits of K at pc and
pc + 1, two steps give Rd = V, pc + 2, no prefix, and change nothing else but the inputs of two boundaries,
which they spend (40_prefix.md R123, R127). -/
def Obligations.LongMoveTakesTwoSteps : Prop :=
  ∀ (s : State) (v : Word) (high3 : BitVec 3) (d : Reg),
    s.halted = false → s.pfx = none → s.Undisturbed →
    s.progPopulated s.pc = true → s.progPopulated (s.pc + 1) = true →
    s.progAt s.pc = 0b11110#5 ++ v.extractLsb' 5 11 →
    s.progAt (s.pc + 1) = 0b10000#5 ++ high3 ++ v.extractLsb' 0 5 ++ fieldOfReg d →
    ∃ mid, Stepped s mid ∧ Stepped mid
      { s with regs := s.regs.set d v, pc := s.pc + 2, requests := s.requests.tail.tail }

/-- An absolute load is two steps: `pfixz_k A[15:5]`, then the `ld.w` core word with A[4:0] and any Rs
bits, 7 among them, load the word at A (40_prefix.md R126, 43_memory.md R206). -/
def Obligations.AbsoluteLoadTakesTwoSteps : Prop :=
  ∀ (s : State) (a : Word) (rs : RegField) (d : Reg),
    s.halted = false → s.pfx = none → s.Undisturbed →
    s.progPopulated s.pc = true → s.progPopulated (s.pc + 1) = true →
    s.progAt s.pc = 0b11111#5 ++ a.extractLsb' 5 11 →
    s.progAt (s.pc + 1) = 0b01001#5 ++ a.extractLsb' 0 5 ++ rs ++ fieldOfReg d →
    WordFits s a →
    ∃ mid, Stepped s mid ∧ Stepped mid
      { s with regs := s.regs.set d (wordAt s a), pc := s.pc + 2, requests := s.requests.tail.tail }

/-- The absolute forms are the I1 loads and stores under a pending `pfixz_k` (40_prefix.md R126): with
the prefix that holds A[15:5], the core instruction with A[4:0] and any Rs field has the outcome of the
prefixed form. -/
def Obligations.AbsoluteFormsAreZeroedCores : Prop :=
  ∀ (s : State) (a : Word) (rs rd : RegField), s.pfx = some ⟨true, a.extractLsb' 5 11⟩ →
    let k := a.extractLsb' 0 5
    exec (.movwMr k rs rd) s = exec (.movwAr a rd) s ∧ exec (.movzbMr k rs rd) s = exec (.movzbAr a rd) s ∧
    exec (.movsbMr k rs rd) s = exec (.movsbAr a rd) s ∧ exec (.movwRm k rs rd) s = exec (.movwRa a rd) s ∧
    exec (.movbRm k rs rd) s = exec (.movbRa a rd) s

/-! ### Arithmetic, logic, compares -/

/-- `add Rd, K, Rd` and `sub Rd, K, Rd` (41_arith_logic.md R140, R145): result, SR and AR, with the flags
of the exact sum and difference; K is zero-extended, or the 16-bit immediate under `pfix_k`. -/
def Obligations.ImmediateArithmetic : Prop :=
  ∀ (s : State) (k : BitVec 8) (d : Reg), Extendable s →
    let a := s.regs.get d
    let b := imm s (k.setWidth 16) k
    exec (.addKr k (fieldOfReg d)) s = .next
      (wroteSum s d (a + b) (decide (65536 ≤ a.toNat + b.toNat)) (overflows (a.toInt + b.toInt))) ∧
    exec (.subKr k (fieldOfReg d)) s = .next
      (wroteSum s d (a - b) (decide (b.toNat ≤ a.toNat)) (overflows (a.toInt - b.toInt)))

/-- `add`, `addc`, `sub`, `subc` of three registers (41_arith_logic.md R141 to R144), with the carry or
borrow from AC, the result and all six flags of the exact sum or difference. -/
def Obligations.ThreeRegisterArithmetic : Prop :=
  ∀ (s : State) (rs : RegField) (n d : Reg) (a : Word), R1Base s rs a →
    let b := s.regs.get n
    let ac := s.status.ac.toNat
    let bc := (!s.status.ac).toNat
    exec (.addRrr (fieldOfReg n) rs (fieldOfReg d)) s = .next
      (wroteSum s d (a + b) (decide (65536 ≤ a.toNat + b.toNat)) (overflows (a.toInt + b.toInt))) ∧
    exec (.adcRrr (fieldOfReg n) rs (fieldOfReg d)) s = .next
      (wroteSum s d (a + (b + BitVec.ofNat 16 ac)) (decide (65536 ≤ a.toNat + b.toNat + ac))
        (overflows (a.toInt + b.toInt + ac))) ∧
    exec (.subRrr (fieldOfReg n) rs (fieldOfReg d)) s = .next
      (wroteSum s d (a - b) (decide (b.toNat ≤ a.toNat)) (overflows (a.toInt - b.toInt))) ∧
    exec (.subcRrr (fieldOfReg n) rs (fieldOfReg d)) s = .next
      (wroteSum s d (a - (b + BitVec.ofNat 16 bc)) (decide (b.toNat + bc ≤ a.toNat))
        (overflows (a.toInt - b.toInt - bc)))

/-- `neg Rs, Rd` (41_arith_logic.md R146): -Rs with the flags of 0 - Rs; C only for 0, V only for the
most negative number. -/
def Obligations.Negate : Prop :=
  ∀ (s : State) (r d : Reg), s.pfx = none →
    let v := s.regs.get r
    exec (.negRr (fieldOfReg r) (fieldOfReg d)) s = .next
      (wroteSum s d (-v) (decide (v = 0)) (decide (v = 0x8000)))

/-- Two-word addition and subtraction chain through AC (41_arith_logic.md R163): `add` of the low words
and then `addc` of the high words make the 32-bit sum, `sub` and then `subc` the 32-bit difference; the
low result's register is none of the high sources. -/
def Obligations.MultiWordChain : Prop :=
  ∀ (s : State) (a0 b0 a1 b1 d0 d1 : Reg), s.pfx = none → d0 ≠ a1 → d0 ≠ b1 → d0 ≠ d1 →
    let a := s.regs.get a1 ++ s.regs.get a0
    let b := s.regs.get b1 ++ s.regs.get b0
    (∃ t u, exec (.addRrr (fieldOfReg b0) (fieldOfReg a0) (fieldOfReg d0)) s = .next t ∧
      exec (.adcRrr (fieldOfReg b1) (fieldOfReg a1) (fieldOfReg d1)) t = .next u ∧
      u.regs.get d1 ++ u.regs.get d0 = a + b ∧ u.status.ac = decide (2 ^ 32 ≤ a.toNat + b.toNat)) ∧
    (∃ t u, exec (.subRrr (fieldOfReg b0) (fieldOfReg a0) (fieldOfReg d0)) s = .next t ∧
      exec (.subcRrr (fieldOfReg b1) (fieldOfReg a1) (fieldOfReg d1)) t = .next u ∧
      u.regs.get d1 ++ u.regs.get d0 = a - b ∧ u.status.ac = decide (b.toNat ≤ a.toNat))

/-- The logic instructions (41_arith_logic.md R150 to R155): the result, Z and S from it, C and V some
values, AC and AZ kept. -/
def Obligations.LogicInstructions : Prop :=
  (∀ (s : State) (k : BitVec 8) (d : Reg), Extendable s →
    let a := s.regs.get d
    let b := imm s (k.setWidth 16) k
    WroteLogic (exec (.andKr k (fieldOfReg d)) s) s d (a &&& b) ∧
    WroteLogic (exec (.orKr k (fieldOfReg d)) s) s d (a ||| b)) ∧
  (∀ (s : State) (rs : RegField) (n d : Reg) (a : Word), R1Base s rs a →
    let b := s.regs.get n
    WroteLogic (exec (.andRrr (fieldOfReg n) rs (fieldOfReg d)) s) s d (a &&& b) ∧
    WroteLogic (exec (.orRrr (fieldOfReg n) rs (fieldOfReg d)) s) s d (a ||| b) ∧
    WroteLogic (exec (.xorRrr (fieldOfReg n) rs (fieldOfReg d)) s) s d (a ^^^ b)) ∧
  (∀ (s : State) (r d : Reg), s.pfx = none →
    WroteLogic (exec (.notRr (fieldOfReg r) (fieldOfReg d)) s) s d (~~~(s.regs.get r)))

/-- The extensions, shifts, plain move and byte swap, each rule whole: word, result, no flag, refusals
(41_arith_logic.md R147, R148, R149, R156, R157, R158; 42_moves.md R181, R184). -/
def Obligations.MovesExtensionsShifts : Prop :=
  R2Move .movRr 0x0000 (fun v => v) ∧
  R2Move .zextRr 0x0400 (fun v => v &&& 0x00FF) ∧
  R2Move .sextRr 0x0600 (fun v => if v.getLsbD 7 then v ||| 0xFF00 else v &&& 0x00FF) ∧
  R2Move .sextwRr 0x0A00 (fun v => if v.toInt < 0 then 0xFFFF else 0x0000) ∧
  R2Move .asrRr 0x0440 (fun v => BitVec.ofInt 16 (v.toInt / 2)) ∧
  R2Move .lsrRr 0x0040 (fun v => BitVec.ofNat 16 (v.toNat / 2)) ∧
  R2Move .lslRr 0x0240 (fun v => v + v) ∧
  R2Move .bswapRr 0x0800 (fun v => v.rotateLeft 8)

/-- `cmp` (41_arith_logic.md R159, R160): SR from the exact difference of the left operand Rd and the
right one, AC, AZ and every register kept; the immediate is sign-extended. -/
def Obligations.Compares : Prop :=
  (∀ (s : State) (k : BitVec 8) (d : Reg), Extendable s →
    let a := s.regs.get d
    let b := imm s (k.signExtend 16) k
    exec (.cmpRk k (fieldOfReg d)) s = .next
      { s with status := compared s.status (a - b) (decide (b.toNat ≤ a.toNat))
                 (overflows (a.toInt - b.toInt)), pc := s.pc + 1, pfx := none }) ∧
  (∀ (s : State) (r d : Reg), s.pfx = none →
    let a := s.regs.get d
    let b := s.regs.get r
    exec (.cmpRr (fieldOfReg r) (fieldOfReg d)) s = .next
      { s with status := compared s.status (a - b) (decide (b.toNat ≤ a.toNat))
                 (overflows (a.toInt - b.toInt)), pc := s.pc + 1, pfx := none })

/-- After a compare every condition says of the two operands what its description says: equality, the
unsigned order, the signed order (10_state.md R29, 30_encoding.md R94; R29 is the spec's own
derivation). -/
def Obligations.CompareThenConditions : Prop :=
  ∀ (s t : State) (cc : Cond) (d : Reg),
    (∀ r : Reg, exec (.cmpRr (fieldOfReg r) (fieldOfReg d)) s = .next t →
      t.status.holds cc = relation cc (s.regs.get d) (s.regs.get r)) ∧
    (∀ k : BitVec 8, exec (.cmpRk k (fieldOfReg d)) s = .next t →
      t.status.holds cc = relation cc (s.regs.get d) (imm s (k.signExtend 16) k))

/-- The sums that write no flag (41_arith_logic.md R161, R162): `add Rs, K, Rd` and `add SP, K, Rd`,
which with K = 0 copies SP (42_moves.md R183). -/
def Obligations.AddressSums : Prop :=
  (∀ (s : State) (k : BitVec 5) (rs : RegField) (d : Reg) (b : Word), I1Base s rs b →
    exec (.leaMr k rs (fieldOfReg d)) s = .next (wrote s d (b + imm s (k.setWidth 16) k))) ∧
  (∀ (s : State) (k : BitVec 8) (d : Reg), Extendable s →
    exec (.leaSr k (fieldOfReg d)) s = .next (wrote s d (s.sp + imm s (k.setWidth 16) k)))

/-! ### Moves -/

/-- `mov K, Rd` (42_moves.md R180): the word, the sign-extended K or the 16-bit immediate, no flag, and
the two refusals. -/
def Obligations.MoveImmediate : Prop :=
  (∀ (k : BitVec 8) (rd : RegField),
    encode (.movKr k rd) = [0x8000 ||| (k.setWidth 16 <<< 3) ||| rd.setWidth 16]) ∧
  (∀ (s : State) (k : BitVec 8) (d : Reg), Extendable s →
    exec (.movKr k (fieldOfReg d)) s = .next (wrote s d (imm s (k.signExtend 16) k))) ∧
  (∀ (s : State) (k : BitVec 8) (rd : RegField), ¬ Extendable s →
    exec (.movKr k rd) s = .refused .prefixUndocumented) ∧
  (∀ (s : State) (k : BitVec 8), Extendable s → exec (.movKr k 7) s = .refused .registerField7)

/-- NOP, the word 0x0000, is `mov r0, r0` and leaves every register and flag unchanged (42_moves.md
R182). -/
def Obligations.NopLeavesAll : Prop :=
  decode none 0x0000 = .movRr 0 0 ∧
  ∀ s : State, s.pfx = none → exec (.movRr 0 0) s = .next { s with pc := s.pc + 1 }

/-- `sel%cc Rs, Rn, Rd` (42_moves.md R185): Rs, or zero under `pfixz_k`, if the test of 30_encoding.md R94
holds, else Rn; no flag. The pseudo-conditions `ule` and `le` are `sel` under `ugt` and `gt` with Rs and
Rn exchanged (30_encoding.md R106, derived there). -/
def Obligations.ConditionalSelect : Prop :=
  (∀ (s : State) (cc : Cond) (rs : RegField) (n d : Reg) (a : Word), R1Base s rs a →
    exec (.selCrrr cc (fieldOfReg n) rs (fieldOfReg d)) s = .next
      (wrote s d (if formula s.status cc then a else s.regs.get n))) ∧
  (∀ (s : State) (a b d : Reg), s.pfx = none →
    exec (.selCrrr .ugt (fieldOfReg a) (fieldOfReg b) (fieldOfReg d)) s = .next
      (wrote s d (if !s.status.c || s.status.z then s.regs.get a else s.regs.get b)) ∧
    exec (.selCrrr .gt (fieldOfReg a) (fieldOfReg b) (fieldOfReg d)) s = .next
      (wrote s d (if (s.status.s != s.status.v) || s.status.z then s.regs.get a else s.regs.get b)))

/-- `set%cc Rd` (42_moves.md R186), the rule whole: the word and its don't-care bits 5:3, 1 or 0 in all of
Rd by the test of 30_encoding.md R94, no flag, and the two refusals. -/
def Obligations.ConditionalSet : Prop :=
  (∀ (cc : Cond) (rd : RegField),
    encode (.setCr cc rd) = [0x01C0 ||| (cc.code.setWidth 16 <<< 9) ||| rd.setWidth 16]) ∧
  (∀ (pfx : Option Pfx) (cc : Cond) (x rd : BitVec 3),
    decode pfx (0b0000#4 ++ cc.code ++ 0b111#3 ++ x ++ rd) = .setCr cc rd) ∧
  (∀ (s : State) (cc : Cond) (d : Reg), s.pfx = none →
    exec (.setCr cc (fieldOfReg d)) s = .next
      (wrote s d (if formula s.status cc then 0x0001 else 0x0000))) ∧
  (∀ (s : State) (cc : Cond), s.pfx = none → exec (.setCr cc 7) s = .refused .registerField7) ∧
  (∀ (s : State) (cc : Cond) (rd : RegField), s.pfx ≠ none →
    exec (.setCr cc rd) s = .refused .prefixUndocumented)

/-! ### Loads and stores -/

/-- The register-plus-immediate loads (43_memory.md R200 to R203), also in their long and absolute
forms under a pending prefix. -/
def Obligations.BaseOffsetLoads : Prop :=
  ∀ (s : State) (k : BitVec 5) (rs : RegField) (d : Reg) (b : Word), I1Base s rs b →
    let ea := b + imm s (k.setWidth 16) k
    (WordFits s ea → exec (.movwMr k rs (fieldOfReg d)) s = .next (wrote s d (wordAt s ea))) ∧
    (s.dataPopulated ea = true →
      exec (.movzbMr k rs (fieldOfReg d)) s = .next (wrote s d ((s.byteAt ea).setWidth 16)) ∧
      exec (.movsbMr k rs (fieldOfReg d)) s = .next (wrote s d ((s.byteAt ea).signExtend 16)))

/-- The register-plus-immediate stores (43_memory.md R200, R204, R205). -/
def Obligations.BaseOffsetStores : Prop :=
  ∀ (s : State) (k : BitVec 5) (rs : RegField) (d : Reg) (b : Word), I1Base s rs b →
    let ea := b + imm s (k.setWidth 16) k
    (WordFits s ea → StoredWord (exec (.movwRm k rs (fieldOfReg d)) s) s ea (s.regs.get d)) ∧
    (s.dataPopulated ea = true →
      StoredByte (exec (.movbRm k rs (fieldOfReg d)) s) s ea (s.regs.get d))

/-- The absolute loads and stores, each rule whole (43_memory.md R206 to R210): the two words, in which
the core word's bits 5:3 are ignored; the result; no flag, no other register; the refusals of Rd = 7,
of an odd address for a word, of an unpopulated address. -/
def Obligations.AbsoluteLoadsStores : Prop :=
  (∀ (a : Word) (rd : RegField),
    let first : Word := 0xF800 ||| (a >>> 5)
    let low : Word := ((a &&& 0b11111) <<< 6) ||| rd.setWidth 16
    encode (.movwAr a rd) = [first, 0x4800 ||| low] ∧ encode (.movzbAr a rd) = [first, 0x5000 ||| low] ∧
    encode (.movsbAr a rd) = [first, 0x5800 ||| low] ∧ encode (.movwRa a rd) = [first, 0x6000 ||| low] ∧
    encode (.movbRa a rd) = [first, 0x6800 ||| low]) ∧
  (∀ (a : Word) (rs rd : RegField) (k : BitVec 5), k = a.extractLsb' 0 5 →
    let pfx := some ⟨true, a.extractLsb' 5 11⟩
    decode pfx (0b01001#5 ++ k ++ rs ++ rd) = .movwAr a rd ∧
    decode pfx (0b01010#5 ++ k ++ rs ++ rd) = .movzbAr a rd ∧
    decode pfx (0b01011#5 ++ k ++ rs ++ rd) = .movsbAr a rd ∧
    decode pfx (0b01100#5 ++ k ++ rs ++ rd) = .movwRa a rd ∧
    decode pfx (0b01101#5 ++ k ++ rs ++ rd) = .movbRa a rd) ∧
  (∀ (s : State) (a : Word) (d : Reg),
    (WordFits s a →
      exec (.movwAr a (fieldOfReg d)) s = .next (wrote s d (wordAt s a)) ∧
      StoredWord (exec (.movwRa a (fieldOfReg d)) s) s a (s.regs.get d)) ∧
    (s.dataPopulated a = true →
      exec (.movzbAr a (fieldOfReg d)) s = .next (wrote s d ((s.byteAt a).setWidth 16)) ∧
      exec (.movsbAr a (fieldOfReg d)) s = .next (wrote s d ((s.byteAt a).signExtend 16)) ∧
      StoredByte (exec (.movbRa a (fieldOfReg d)) s) s a (s.regs.get d)) ∧
    (a.toNat % 2 = 1 →
      exec (.movwAr a (fieldOfReg d)) s = .refused .misalignedWord ∧
      exec (.movwRa a (fieldOfReg d)) s = .refused .misalignedWord) ∧
    (s.dataPopulated a = false →
      (a.toNat % 2 = 0 → exec (.movwAr a (fieldOfReg d)) s = .refused .unpopulatedAddress ∧
        exec (.movwRa a (fieldOfReg d)) s = .refused .unpopulatedAddress) ∧
      exec (.movzbAr a (fieldOfReg d)) s = .refused .unpopulatedAddress ∧
      exec (.movsbAr a (fieldOfReg d)) s = .refused .unpopulatedAddress ∧
      exec (.movbRa a (fieldOfReg d)) s = .refused .unpopulatedAddress)) ∧
  (∀ (s : State) (a : Word),
    exec (.movwAr a 7) s = .refused .registerField7 ∧ exec (.movzbAr a 7) s = .refused .registerField7 ∧
    exec (.movsbAr a 7) s = .refused .registerField7 ∧ exec (.movwRa a 7) s = .refused .registerField7 ∧
    exec (.movbRa a 7) s = .refused .registerField7)

/-- The SP-relative loads and stores (43_memory.md R211 to R215); SP is not written. -/
def Obligations.StackRelativeLoadsStores : Prop :=
  ∀ (s : State) (k : BitVec 8) (d : Reg), Extendable s →
    let ea := s.sp + imm s (k.setWidth 16) k
    (WordFits s ea →
      exec (.movwSr k (fieldOfReg d)) s = .next (wrote s d (wordAt s ea)) ∧
      StoredWord (exec (.movwRs k (fieldOfReg d)) s) s ea (s.regs.get d)) ∧
    (s.dataPopulated ea = true →
      exec (.movzbSr k (fieldOfReg d)) s = .next (wrote s d ((s.byteAt ea).setWidth 16)) ∧
      exec (.movsbSr k (fieldOfReg d)) s = .next (wrote s d ((s.byteAt ea).signExtend 16)) ∧
      StoredByte (exec (.movbRs k (fieldOfReg d)) s) s ea (s.regs.get d))

/-- The register-plus-register loads and stores (43_memory.md R216 to R220). -/
def Obligations.IndexedLoadsStores : Prop :=
  ∀ (s : State) (rs : RegField) (n d : Reg) (b : Word), R1Base s rs b →
    let ea := b + s.regs.get n
    (WordFits s ea →
      exec (.movwNr (fieldOfReg n) rs (fieldOfReg d)) s = .next (wrote s d (wordAt s ea)) ∧
      StoredWord (exec (.movwRn (fieldOfReg n) rs (fieldOfReg d)) s) s ea (s.regs.get d)) ∧
    (s.dataPopulated ea = true →
      exec (.movzbNr (fieldOfReg n) rs (fieldOfReg d)) s =
        .next (wrote s d ((s.byteAt ea).setWidth 16)) ∧
      exec (.movsbNr (fieldOfReg n) rs (fieldOfReg d)) s =
        .next (wrote s d ((s.byteAt ea).signExtend 16)) ∧
      StoredByte (exec (.movbRn (fieldOfReg n) rs (fieldOfReg d)) s) s ea (s.regs.get d))

/-- A word and its two bytes (20_memory.md R54, R55): after a word store of `v` at `a`, the byte at `a`
is `v[7:0]` in little and `v[15:8]` in big, the byte at `a + 1` the other; and after a byte store at
`a` or `a + 1` the word at `a` is the new byte with the old neighbour. -/
def Obligations.MixedWidthAccess : Prop :=
  ∀ (s t : State) (a : Word) (d : Reg), WordFits s a →
    (exec (.movwRa a (fieldOfReg d)) s = .next t →
      let lo := (s.regs.get d).extractLsb' 0 8
      let hi := (s.regs.get d).extractLsb' 8 8
      (s.params.byteOrder = .little → t.byteAt a = lo ∧ t.byteAt (a + 1) = hi) ∧
      (s.params.byteOrder = .big → t.byteAt a = hi ∧ t.byteAt (a + 1) = lo)) ∧
    (exec (.movbRa a (fieldOfReg d)) s = .next t →
      let b := (s.regs.get d).extractLsb' 0 8
      (s.params.byteOrder = .little → wordAt t a = s.byteAt (a + 1) ++ b) ∧
      (s.params.byteOrder = .big → wordAt t a = b ++ s.byteAt (a + 1))) ∧
    (exec (.movbRa (a + 1) (fieldOfReg d)) s = .next t →
      let b := (s.regs.get d).extractLsb' 0 8
      (s.params.byteOrder = .little → wordAt t a = b ++ s.byteAt a) ∧
      (s.params.byteOrder = .big → wordAt t a = s.byteAt a ++ b))

/-- `push` and `pop`, each rule whole (43_memory.md R221, R222): the words and their don't-care bits 5:3;
SP - 2 and the word stored there; the word at SP and SP + 2; no flag; `push Rx` then `pop Ry` copies Rx
to Ry and restores SP; the refusals. -/
def Obligations.PushAndPop : Prop :=
  (∀ rd : RegField, encode (.pushR rd) = [0x0500 ||| rd.setWidth 16] ∧
    encode (.popR rd) = [0x0700 ||| rd.setWidth 16]) ∧
  (∀ (pfx : Option Pfx) (x rd : BitVec 3),
    decode pfx (0b0000010100#10 ++ x ++ rd) = .pushR rd ∧
    decode pfx (0b0000011100#10 ++ x ++ rd) = .popR rd) ∧
  (∀ (s : State) (d : Reg), s.pfx = none →
    (WordFits s (s.sp - 2) → Pushed (exec (.pushR (fieldOfReg d)) s) s (s.regs.get d) (s.pc + 1)) ∧
    (WordFits s s.sp → exec (.popR (fieldOfReg d)) s = .next
      { wrote s d (wordAt s s.sp) with sp := s.sp + 2 }) ∧
    (s.sp.toNat % 2 = 1 → exec (.pushR (fieldOfReg d)) s = .refused .misalignedWord ∧
      exec (.popR (fieldOfReg d)) s = .refused .misalignedWord) ∧
    (s.sp.toNat % 2 = 0 →
      (s.dataPopulated (s.sp - 2) = false →
        exec (.pushR (fieldOfReg d)) s = .refused .unpopulatedAddress) ∧
      (s.dataPopulated s.sp = false → exec (.popR (fieldOfReg d)) s = .refused .unpopulatedAddress))) ∧
  (∀ (s : State) (x y : Reg), s.pfx = none → WordFits s (s.sp - 2) →
    ∃ t u, exec (.pushR (fieldOfReg x)) s = .next t ∧ exec (.popR (fieldOfReg y)) t = .next u ∧
      u.regs = s.regs.set y (s.regs.get x) ∧ u.sp = s.sp ∧ u.status = s.status) ∧
  (∀ s : State, s.pfx = none → exec (.pushR 7) s = .refused .registerField7 ∧
    exec (.popR 7) s = .refused .registerField7) ∧
  (∀ (s : State) (rd : RegField), s.pfx ≠ none → exec (.pushR rd) s = .refused .prefixUndocumented ∧
    exec (.popR rd) s = .refused .prefixUndocumented)

/-- `ld.w {Rs}, Rd` (43_memory.md R224, decision D7): the program word at the address in Rs. -/
def Obligations.ProgramRead : Prop :=
  ∀ (s : State) (r d : Reg), s.pfx = none →
    (s.progPopulated (s.regs.get r) = true →
      exec (.movwPr (fieldOfReg r) (fieldOfReg d)) s = .next (wrote s d (s.progAt (s.regs.get r)))) ∧
    (s.progPopulated (s.regs.get r) = false →
      exec (.movwPr (fieldOfReg r) (fieldOfReg d)) s = .refused .unpopulatedAddress)

/-! ### Branches, calls, return -/

/-- The PC-relative transfers (44_branch.md R240 to R244): a branch or jump changes only pc and PFX, and a
branch not taken goes to the next word and clears PFX too; a call pushes pc + 1 and goes to its target.
The target rests on decision D8, the return address on D10. -/
def Obligations.RelativeTransfers : Prop :=
  ∀ (s : State) (cc : Cond) (a : BitVec 9), Extendable s →
    exec (.brCk cc a) s = .next
      { s with pc := if formula s.status cc then target s a else s.pc + 1, pfx := none } ∧
    exec (.jmpK a) s = .next { s with pc := target s a, pfx := none } ∧
    (WordFits s (s.sp - 2) → Pushed (exec (.callK a) s) s (s.pc + 1) (target s a))

/-- The transfers of format R2, each rule whole (44_branch.md R245 to R247): the words and their don't-care
bits; `jmp Rd` to the absolute address in Rd; `call Rd`, which pushes pc + 1 first; `ret` to the word at
SP, SP + 2, whether or not a call put it there, so that `push Rd` then `ret` is an indirect jump; no flag
and no register; the refusals. -/
def Obligations.RegisterTransfers : Prop :=
  (∀ rd : RegField, encode (.jmpR rd) = [0x0100 ||| rd.setWidth 16] ∧
    encode (.callR rd) = [0x0300 ||| rd.setWidth 16]) ∧ encode .ret = [0x0180] ∧
  (∀ (pfx : Option Pfx) (x rd : BitVec 3), decode pfx (0b0000000100#10 ++ x ++ rd) = .jmpR rd ∧
    decode pfx (0b0000001100#10 ++ x ++ rd) = .callR rd ∧
    decode pfx (0b0000000110#10 ++ x ++ rd) = .ret) ∧
  (∀ (s : State) (d : Reg), s.pfx = none →
    exec (.jmpR (fieldOfReg d)) s = .next { s with pc := s.regs.get d } ∧
    (WordFits s (s.sp - 2) → Pushed (exec (.callR (fieldOfReg d)) s) s (s.pc + 1) (s.regs.get d)) ∧
    (WordFits s s.sp → exec .ret s = .next { s with pc := wordAt s s.sp, sp := s.sp + 2 }) ∧
    (WordFits s (s.sp - 2) → ∃ t u, exec (.pushR (fieldOfReg d)) s = .next t ∧
      exec .ret t = .next u ∧ u.pc = s.regs.get d ∧ u.sp = s.sp) ∧
    (s.sp.toNat % 2 = 1 → exec (.callR (fieldOfReg d)) s = .refused .misalignedWord ∧
      exec .ret s = .refused .misalignedWord) ∧
    (s.sp.toNat % 2 = 0 →
      (s.dataPopulated (s.sp - 2) = false →
        exec (.callR (fieldOfReg d)) s = .refused .unpopulatedAddress) ∧
      (s.dataPopulated s.sp = false → exec .ret s = .refused .unpopulatedAddress))) ∧
  (∀ s : State, s.pfx = none → exec (.jmpR 7) s = .refused .registerField7 ∧
    exec (.callR 7) s = .refused .registerField7) ∧
  (∀ (s : State) (rd : RegField), s.pfx ≠ none → exec (.jmpR rd) s = .refused .prefixUndocumented ∧
    exec (.callR rd) s = .refused .prefixUndocumented ∧ exec .ret s = .refused .prefixUndocumented)

/-- A call followed by `ret` resumes at the word after the call with SP as it was, for both kinds of
call and either byte order (44_branch.md R243, decision D10). -/
def Obligations.CallThenReturnResumes : Prop :=
  ∀ (s t : State) (i : Instr), (∃ a, i = .callK a) ∨ (∃ d, i = .callR d) →
    exec i s = .next t → ∃ u, exec .ret t = .next u ∧ u.pc = s.pc + 1 ∧ u.sp = s.sp ∧ u.regs = s.regs ∧
      u.status = s.status

/-! ### System -/

/-- `eint` and `dint` (45_system.md R261, R262, decision D20): I and no other flag. -/
def Obligations.InterruptFlag : Prop :=
  ∀ s : State, s.pfx = none →
    exec .eint s = .next { s with status := { s.status with i := true }, pc := s.pc + 1 } ∧
    exec .dint s = .next { s with status := { s.status with i := false }, pc := s.pc + 1 }

/-- `halt` sets H and moves pc past the word, everything else unchanged; from then on the machine has no
step (45_system.md R264, decision D21), and of all that can come to it, under any instance of `IntModel`,
only a reset gives a next state, one with H = 0 (70_reset_and_hazards.md R310). That the missing step is
the fault `halted` is the model's choice (assumption log 20). -/
def Obligations.HaltIsTerminal : Prop :=
  (∀ s : State, s.pfx = none → exec .halt s = .next { s with halted := true, pc := s.pc + 1 }) ∧
  (∀ s : State, s.halted = true → step s = .fault .halted) ∧
  (∀ s : State, step s = .fault .halted → s.halted = true) ∧
  (∀ (ε : Type) (m : IntModel ε) (e : Event ε) (s t : State), s.halted = true →
    advance m e s = .next t → ∃ l, e = .reset l) ∧
  (∀ (ε : Type) (m : IntModel ε) (l : Launch) (s : State),
    ∃ t, advance m (.reset l) s = .next t ∧ t.halted = false)

/-- The instructions the spec stops on every path: Reserved words and "(Not implemented)" words whatever
PFX and their low bits, `reti` unless a prefix is refused first (45_system.md R263, R265 to R267,
60_exceptions.md R285). -/
def Obligations.SpecStops : Prop :=
  (∀ (i : Instr) (s : State), i.format = .reserved → exec i s = .refused .reservedEncoding) ∧
  (∀ (rd : RegField) (s : State), exec (.movTr rd) s = .refused .notImplemented ∧
    exec (.movRt rd) s = .refused .notImplemented) ∧
  (∀ s : State, s.pfx = none → exec .reti s = .refused .retiUnspecified) ∧
  (∀ s : State, s.pfx ≠ none → exec .reti s = .refused .prefixUndocumented)

/-! ### Refusals of the whole machine -/

/-- Register field 7 in a field the instruction uses is refused, for every instruction with registers
that has a documented form under the pending prefix; a zeroed Rs field is not used (10_state.md R22,
decision D3; 40_prefix.md R125; the order is 60_exceptions.md R285). -/
def Obligations.RegisterField7Refused : Prop :=
  ∀ (i : Instr) (s : State), i.format ≠ .reserved → i.format ≠ .notImplemented →
    i.runsUnder s.pfx = true → (7 : RegField) ∈ i.usedFields s.zeroing →
    exec i s = .refused .registerField7

/-- A core instruction with no documented form under the pending prefix is refused before its operands
are looked at, and a prefix word after a prefix word by its own name (40_prefix.md R128, decision D15;
60_exceptions.md R285). -/
def Obligations.UndocumentedPrefixRefused : Prop :=
  ∀ (i : Instr) (s : State), i.format ≠ .reserved → i.format ≠ .notImplemented →
    i.runsUnder s.pfx = false →
    exec i s = .refused (if i.format = .p then .prefixAfterPrefix else .prefixUndocumented)

/-- A 16-bit data access to an odd address is refused with nothing read or written, for every
instruction that makes one (20_memory.md R56, decision D5; R57). -/
def Obligations.MisalignedWordRefused : Prop :=
  ∀ (i : Instr) (s : State) (a : Word), wordAddress i s = some a → a.toNat % 2 = 1 →
    exec i s = .refused .misalignedWord

/-- A data access outside `DMEM_RANGE` is refused, a misaligned one first by its own name (20_memory.md
R50, decision D6; that a word needs both of its bytes is the model's reading, assumption log 17). -/
def Obligations.UnpopulatedAccessRefused : Prop :=
  ∀ (i : Instr) (s : State) (a : Word),
    (wordAddress i s = some a → a.toNat % 2 = 0 →
      s.dataPopulated a = false ∨ s.dataPopulated (a + 1) = false →
      exec i s = .refused .unpopulatedAddress) ∧
    (byteAddress i s = some a → s.dataPopulated a = false → exec i s = .refused .unpopulatedAddress)

/-- An instruction is never stopped by a fault, and by no refusal outside the reasons 60_exceptions.md
R281 gives for instructions: never `interruptEntryUnspecified`, never a missing meaning. -/
def Obligations.InstructionsStopOnlyByName : Prop :=
  ∀ (i : Instr) (s : State), (∀ r, exec i s ≠ .fault r) ∧
    ∀ r, exec i s = .refused r → r ∈ [.prefixAfterPrefix, .reservedEncoding, .notImplemented,
      .prefixUndocumented, .registerField7, .misalignedWord, .unpopulatedAddress, .retiUnspecified]

/-! ### The step -/

/-- A STEP RUNS THE DECODED INSTRUCTION: a running machine at a boundary where no request is accepted,
with pc populated, executes the instruction that the word at pc decodes to under PFX, on the state
whose input for this boundary is spent. -/
def Obligations.StepRunsDecoded : Prop :=
  ∀ (s : State) (i : Instr), s.halted = false → s.acceptsRequest = false →
    s.progPopulated s.pc = true → decode s.pfx (s.progAt s.pc) = i →
    step s = exec i { s with requests := s.requests.tail }

/-- The boundary (60_exceptions.md R284, R286, decisions D16, D19): a request presented with I = 1, PFX
none and H = 0 is refused for want of an entry; with I = 0, or a prefix pending, or no request, the
boundary is passed and a fetch outside `PMEM_RANGE` is refused before all else (R285). -/
def Obligations.BoundaryGating : Prop :=
  ∀ s : State, s.halted = false →
    (s.requests.head? = some true → s.status.i = true → s.pfx = none →
      step s = .refused .interruptEntryUnspecified) ∧
    (s.requests.head? ≠ some true ∨ s.status.i = false ∨ s.pfx ≠ none →
      step s ≠ .refused .interruptEntryUnspecified ∧
      (s.progPopulated s.pc = false → step s = .refused .unpopulatedAddress))

/-- The open parameter `IntModel` (60_exceptions.md R283, R284, R286, R287, decision D19; that entry is a
step of its own is assumption log 27): a step under any instance, in any environment. A halted machine
has no step. A request presented with I = 1 and no prefix pending is answered by the instance's entry.
Otherwise the instruction fetched runs: `reti` as the instance's return, unless a prefix is pending,
and every other one as its own meaning. The machine's step is the one under the default instance, whose
request is free and whose entry and return refuse. -/
def Obligations.StepUnderAnyIntModel : Prop :=
  (∀ (ε : Type) (m : IntModel ε) (env : ε) (s : State),
    (s.halted = true → stepUnder m env s = .fault .halted) ∧
    (s.halted = false → m.request env s = true → s.status.i = true → s.pfx = none →
      (∀ t, m.enter s = .ok t → stepUnder m env s = .next t) ∧
      (∀ r, m.enter s = .error r → stepUnder m env s = .refused r)) ∧
    (s.halted = false → m.request env s = false ∨ s.status.i = false ∨ s.pfx ≠ none →
      (s.progPopulated s.pc = false → stepUnder m env s = .refused .unpopulatedAddress) ∧
      (s.progPopulated s.pc = true → decode s.pfx (s.progAt s.pc) ≠ .reti →
        stepUnder m env s = exec (decode s.pfx (s.progAt s.pc)) s) ∧
      (s.progPopulated s.pc = true → decode s.pfx (s.progAt s.pc) = .reti →
        (s.pfx ≠ none → stepUnder m env s = .refused .prefixUndocumented) ∧
        (s.pfx = none →
          (∀ t, m.resume s = .ok t → stepUnder m env s = .next t) ∧
          (∀ r, m.resume s = .error r → stepUnder m env s = .refused r))))) ∧
  (∀ s : State, step s = stepUnder defaultIntModel s.requestPresent s.pastBoundary) ∧
  (∀ (present : Bool) (s : State), defaultIntModel.request present s = present ∧
    defaultIntModel.enter s = .error .interruptEntryUnspecified ∧
    defaultIntModel.resume s = .error .retiUnspecified)

/-- `withFetchWord` stands for loading a word: on a running, unprefixed, undisturbed state with pc
populated the next step runs the instruction the word decodes to, with the input of this boundary
spent. -/
def Obligations.FetchWordRuns : Prop :=
  ∀ (s : State) (w : Word), s.halted = false → s.pfx = none → s.Undisturbed →
    s.progPopulated s.pc = true →
    step (s.withFetchWord 16 w.toNat) =
      exec (decode none w) { s.withFetchWord 16 w.toNat with requests := s.requests.tail }

/-- Reset (10_state.md R38, 70_reset_and_hazards.md R310, decision D22). As an event it takes every machine,
whatever its state, to the open parameters `RESET_PC`, `RESET_SP`, `RESET_I`, no pending prefix and H = 0,
any values of the registers, the other flags and data memory, and the program words it had; that it
leaves the model's own fields is the model's choice (assumption log 28). `State.reset` is what it gives
of itself for the values the model chose. Of those the spec fixes no pending prefix and H = 0; the rest
is the model's choice: pc, SP and I at its launch values (assumption log 5 to 7); the registers and the
other flags (log 8, 9); the open parameters, little, the word after the branch word, and every data and
program address populated (log 1 to 3); no request presented (log 13); no draw made (log 12); nothing
listed in either memory, so that every cell holds its free launch value (log 10, 11). -/
def Obligations.ResetState : Prop :=
  State.reset.pfx = none ∧ State.reset.halted = false ∧ State.reset.pc = 0 ∧ State.reset.sp = 0x1000 ∧
  State.reset.status = ⟨false, false, false, false, false, false, false⟩ ∧
  (∀ r, State.reset.regs.get r = 0) ∧
  (∀ a, State.reset.byteAt a = Config.launchByte a) ∧ (∀ a, State.reset.progAt a = Config.launchWord a) ∧
  State.reset.params.byteOrder = .little ∧ State.reset.params.brBase = .nextWord ∧
  (∀ a, State.reset.dataPopulated a = true) ∧ (∀ a, State.reset.progPopulated a = true) ∧
  State.reset.requests = [] ∧ State.reset.draws = 0 ∧
  State.reset.params.resetPc = 0 ∧ State.reset.params.resetSp = 0x1000 ∧
  State.reset.params.resetI = false ∧
  (∀ (ε : Type) (m : IntModel ε) (l : Launch) (s : State), ∃ t, advance m (.reset l) s = .next t ∧
    t.pc = s.params.resetPc ∧ t.sp = s.params.resetSp ∧
    t.status = ⟨s.params.resetI, l.v, l.s, l.c, l.z, l.ac, l.az⟩ ∧ t.pfx = none ∧ t.halted = false ∧
    t.regs = l.regs ∧ (∀ a, t.byteAt a = (l.dmem.read? a.toNat).getD (Config.launchByte a)) ∧
    (∀ a, t.progAt a = s.progAt a) ∧ t.params = s.params ∧ t.requests = s.requests ∧
    t.draws = s.draws) ∧
  State.reset.resetTo .chosen = State.reset

/-- The invariant of the memories holds in `State.reset`, and after a reset of any machine it holds for
whose launch values list data memory canonically. -/
def Obligations.ResetHoldsInv : Prop :=
  State.reset.Inv ∧ ∀ (l : Launch) (s : State), s.Inv → l.dmem.wf = true → (s.resetTo l).Inv

/-- AN INVARIANT THAT EVERY STEP KEEPS: from every state whose memories are in canonical form, a step
gives such a state. -/
def Obligations.StepKeepsInv : Prop := ∀ s t : State, s.Inv → Stepped s t → t.Inv

/-- Canonical memories with the same contents are the same data, in either memory: listing every
address's cell determines the list. -/
def Obligations.CanonicalMemoriesEqual : Prop :=
  ∀ (w : Nat) (m n : Mem w), m.wf = true → n.wf = true → (∀ a, m.read? a = n.read? a) → m = n

/-! ### What an instruction leaves unchanged, and rules of the whole machine -/

/-- REGISTER FRAME: an instruction that completes leaves every general register but its destination. -/
def Obligations.RegisterFrame : Prop :=
  ∀ (i : Instr) (s t : State), exec i s = .next t →
    ∀ r, destination i ≠ some (fieldOfReg r) → t.regs.get r = s.regs.get r

/-- FLAG FRAME (10_state.md R26, decision D12; R28): V, S, C, Z change only under the instructions that
update SR; AC, AZ only under those that update SR and AR, which are among them; I only under `eint`
and `dint`. -/
def Obligations.FlagFrame : Prop :=
  ∀ (i : Instr) (s t : State), exec i s = .next t →
    (updatesSR i = false → t.status.v = s.status.v ∧ t.status.s = s.status.s ∧
      t.status.c = s.status.c ∧ t.status.z = s.status.z) ∧
    (updatesAR i = false → t.status.ac = s.status.ac ∧ t.status.az = s.status.az) ∧
    (i ≠ .eint → i ≠ .dint → t.status.i = s.status.i)

/-- MEMORY FRAME (20_memory.md R57, R58): an instruction that does not store leaves every byte of data
memory; one that stores a word leaves every byte but the two at the address its meaning computes, one
that stores a byte every byte but that one. -/
def Obligations.MemoryFrame : Prop :=
  ∀ (i : Instr) (s t : State), exec i s = .next t →
    (stores i = false → ∀ b, t.byteAt b = s.byteAt b) ∧
    (stores i = true → ∀ a, wordAddress i s = some a →
      ∀ b, b ≠ a → b ≠ a + 1 → t.byteAt b = s.byteAt b) ∧
    (stores i = true → ∀ a, byteAddress i s = some a → ∀ b, b ≠ a → t.byteAt b = s.byteAt b) ∧
    (stores i = true → wordAddress i s ≠ none ∨ byteAddress i s ≠ none)

/-- FRAME of the rest: program memory and the open parameters never change (20_memory.md R53, R64); an
instruction leaves the environment's requests; H changes only under `halt`; SP only under `push`,
`pop`, `call`, `ret`; PFX is none after every instruction but a prefix word (40_prefix.md R123); a draw
is made only by a logic instruction. -/
def Obligations.RestFrame : Prop :=
  ∀ (i : Instr) (s t : State), exec i s = .next t →
    t.pmem = s.pmem ∧ t.params = s.params ∧ t.requests = s.requests ∧
    (i ≠ .halt → t.halted = s.halted) ∧
    ((∀ d, i ≠ .pushR d ∧ i ≠ .popR d ∧ i ≠ .callR d) → (∀ a, i ≠ .callK a) → i ≠ .ret → t.sp = s.sp) ∧
    t.pfx = i.leavesPfx ∧
    t.draws = if isLogic i then s.draws + 1 else s.draws

/-- No step writes program memory, so every fetch from an address returns the word the launch state put
there (20_memory.md R64, derived there), and no step changes the open parameters. -/
def Obligations.StepKeepsProgram : Prop :=
  ∀ s t : State, Stepped s t → t.params = s.params ∧ ∀ a, t.progAt a = s.progAt a

/-- The only changes to SP are steps of -2 and +2 (10_state.md R23, derived there), so its parity never
changes. -/
def Obligations.StackPointerSteps : Prop :=
  ∀ s t : State, Stepped s t →
    (t.sp = s.sp ∨ t.sp = s.sp - 2 ∨ t.sp = s.sp + 2) ∧ t.sp.getLsbD 0 = s.sp.getLsbD 0

/-- A prefix affects exactly the one word that follows it: a step from a pending prefix leaves none, and
a step leaves one only by running a prefix word (40_prefix.md R123, decision D16). -/
def Obligations.PrefixLivesOneWord : Prop :=
  ∀ s t : State, Stepped s t →
    (s.pfx ≠ none → t.pfx = none) ∧
    (∀ p, t.pfx = some p → s.fetch = .ok (if p.zero then .pfixzK p.imm else .pfixK p.imm))

/-- Where pc goes (10_state.md R24, 00_scope.md R13, decision D7): past the word by one, unless the
instruction is a branch, jump, call or return. -/
def Obligations.PcAdvancesByOne : Prop :=
  ∀ (i : Instr) (s t : State), exec i s = .next t →
    (∀ cc a, i ≠ .brCk cc a ∧ i ≠ .jmpK a ∧ i ≠ .callK a) → (∀ d, i ≠ .jmpR d ∧ i ≠ .callR d) → i ≠ .ret →
    t.pc = s.pc + 1

/-- States that agree on Z, C, AC, I and on S xor V, and on everything but the flags, are
indistinguishable to every instruction and every step (10_state.md R32, derived there). -/
def Obligations.FlagsIndistinguishable : Prop :=
  ∀ s t : State, Alike s t →
    (∀ i, AlikeOutcomes (exec i s) (exec i t)) ∧ AlikeOutcomes (step s) (step t)

/-- With I = 0 no environment can stop the machine: whatever requests it presents, a step has the same
outcome but for the input it spends (60_exceptions.md R283: "code that runs with I = 0 throughout needs
no hypothesis"). -/
def Obligations.DisabledInterruptsAreInvisible : Prop :=
  ∀ (s : State) (env : List Bool), s.status.i = false →
    (∀ r, step s = .refused r ↔ step { s with requests := env } = .refused r) ∧
    (∀ t, step s = .next t → step { s with requests := env } = .next { t with requests := env.tail })
end

