-- ==== Sys2Proof/Laws/Flags.lean ====
section
/-! SUPPORT. What the adder computes, over exact integers: the result modulo 65536, the carry as a
comparison of unsigned numbers, the overflow as a signed sum outside 16 bits. -/

namespace Sys2Proof.Machine

theorem addC_res (a b : Word) (cin : Bool) :
    (addC a b cin).res = a + b + BitVec.ofNat 16 cin.toNat := by
  apply BitVec.eq_of_toNat_eq
  simp [addC]

/-- The carry is the sum that does not fit 16 bits. -/
theorem addC_carry (a b : Word) (cin : Bool) :
    (addC a b cin).carry = decide (65536 ≤ a.toNat + b.toNat + cin.toNat) := by
  have := a.isLt
  have := b.isLt
  have : cin.toNat ≤ 1 := by cases cin <;> simp
  rw [Bool.eq_iff_iff]
  simp [addC, Nat.testBit, Nat.shiftRight_eq_div_pow]
  omega

/-- The overflow is the signed sum that is no signed 16-bit number. -/
theorem addC_ovf (a b : Word) (cin : Bool) :
    (addC a b cin).ovf = decide (a.toInt + b.toInt + cin.toNat < -32768 ∨
      32767 < a.toInt + b.toInt + cin.toNat) := by
  have := a.isLt
  have := b.isLt
  have : cin.toNat ≤ 1 := by cases cin <;> simp
  simp only [addC, BitVec.msb_eq_decide, BitVec.toInt_eq_toNat_cond, BitVec.toNat_ofNat]
  rw [Bool.eq_iff_iff]
  simp only [Bool.and_eq_true, beq_iff_eq, bne_iff_ne, ne_eq, decide_eq_decide, decide_eq_true_eq]
  omega

theorem toNat_complement (b : Word) : (~~~b).toNat = 65535 - b.toNat := by
  simp [BitVec.toNat_not]

theorem toInt_complement (b : Word) : (~~~b).toInt = -1 - b.toInt := by
  have := b.isLt
  simp only [BitVec.toInt_eq_toNat_cond, toNat_complement]
  split <;> split <;> omega

theorem subBorrowC_res (a b : Word) (ac : Bool) :
    (subBorrowC a b ac).res = a - b - BitVec.ofNat 16 (!ac).toNat := by
  have := b.isLt
  rw [subBorrowC, addC_res]
  apply BitVec.eq_of_toNat_eq
  cases ac <;> simp only [BitVec.toNat_add, BitVec.toNat_sub, toNat_complement, BitVec.toNat_ofNat,
    Bool.toNat_true, Bool.toNat_false, Bool.not_true, Bool.not_false] <;> omega

/-- The carry of a subtraction is the absence of a borrow. -/
theorem subBorrowC_carry (a b : Word) (ac : Bool) :
    (subBorrowC a b ac).carry = decide (b.toNat + (!ac).toNat ≤ a.toNat) := by
  have := b.isLt
  rw [subBorrowC, addC_carry, toNat_complement, decide_eq_decide]
  cases ac <;> simp only [Bool.toNat_true, Bool.toNat_false, Bool.not_true, Bool.not_false] <;> omega

theorem subBorrowC_ovf (a b : Word) (ac : Bool) :
    (subBorrowC a b ac).ovf = decide (a.toInt - b.toInt - (!ac).toNat < -32768 ∨
      32767 < a.toInt - b.toInt - (!ac).toNat) := by
  rw [subBorrowC, addC_ovf, toInt_complement, decide_eq_decide]
  cases ac <;> simp only [Bool.toNat_true, Bool.toNat_false, Bool.not_true, Bool.not_false] <;> omega

/-- A subtraction is a subtraction with borrow from a carry of 1. -/
theorem subC_eq (a b : Word) : subC a b = subBorrowC a b true := rfl

end Sys2Proof.Machine
end

