-- ==== Sys2Proof/Laws/PerInstr.lean ====
section
/-! SUPPORT. Statements made for each instruction, one lemma a constructor. `WordCount`: an instruction
is one word, a prefixed form two (spec/30_encoding.md R80, spec/40_prefix.md R126). -/

namespace Sys2Proof.Laws.WordCount

/-- The encoding of `i` has one word, or two when `i` is a prefixed form. -/
def Statement (i : Instr) : Prop :=
  (encode i).length = if i.format = .prefixedForm then 2 else 1

theorem pfixK (pImm : BitVec 11) : Statement (.pfixK pImm) := rfl
theorem pfixzK (pImm : BitVec 11) : Statement (.pfixzK pImm) := rfl
theorem leaMr (k : BitVec 5) (rs : RegField) (rd : RegField) : Statement (.leaMr k rs rd) := rfl
theorem movwMr (k : BitVec 5) (rs : RegField) (rd : RegField) : Statement (.movwMr k rs rd) := rfl
theorem movzbMr (k : BitVec 5) (rs : RegField) (rd : RegField) : Statement (.movzbMr k rs rd) := rfl
theorem movsbMr (k : BitVec 5) (rs : RegField) (rd : RegField) : Statement (.movsbMr k rs rd) := rfl
theorem movwRm (k : BitVec 5) (rs : RegField) (rd : RegField) : Statement (.movwRm k rs rd) := rfl
theorem movbRm (k : BitVec 5) (rs : RegField) (rd : RegField) : Statement (.movbRm k rs rd) := rfl
theorem reservedI1x110 : Statement (.reservedI1x110) := rfl
theorem reservedI1x111 : Statement (.reservedI1x111) := rfl
theorem movKr (k : BitVec 8) (rd : RegField) : Statement (.movKr k rd) := rfl
theorem cmpRk (k : BitVec 8) (rd : RegField) : Statement (.cmpRk k rd) := rfl
theorem addKr (k : BitVec 8) (rd : RegField) : Statement (.addKr k rd) := rfl
theorem subKr (k : BitVec 8) (rd : RegField) : Statement (.subKr k rd) := rfl
theorem andKr (k : BitVec 8) (rd : RegField) : Statement (.andKr k rd) := rfl
theorem orKr (k : BitVec 8) (rd : RegField) : Statement (.orKr k rd) := rfl
theorem leaSr (k : BitVec 8) (rd : RegField) : Statement (.leaSr k rd) := rfl
theorem movwSr (k : BitVec 8) (rd : RegField) : Statement (.movwSr k rd) := rfl
theorem movsbSr (k : BitVec 8) (rd : RegField) : Statement (.movsbSr k rd) := rfl
theorem movzbSr (k : BitVec 8) (rd : RegField) : Statement (.movzbSr k rd) := rfl
theorem movwRs (k : BitVec 8) (rd : RegField) : Statement (.movwRs k rd) := rfl
theorem movbRs (k : BitVec 8) (rd : RegField) : Statement (.movbRs k rd) := rfl
theorem brCk (cc : Cond) (a : BitVec 9) : Statement (.brCk cc a) := rfl
theorem jmpK (a : BitVec 9) : Statement (.jmpK a) := rfl
theorem callK (a : BitVec 9) : Statement (.callK a) := rfl
theorem addRrr (rn : RegField) (rs : RegField) (rd : RegField) : Statement (.addRrr rn rs rd) := rfl
theorem adcRrr (rn : RegField) (rs : RegField) (rd : RegField) : Statement (.adcRrr rn rs rd) := rfl
theorem subRrr (rn : RegField) (rs : RegField) (rd : RegField) : Statement (.subRrr rn rs rd) := rfl
theorem subcRrr (rn : RegField) (rs : RegField) (rd : RegField) : Statement (.subcRrr rn rs rd) := rfl
theorem orRrr (rn : RegField) (rs : RegField) (rd : RegField) : Statement (.orRrr rn rs rd) := rfl
theorem andRrr (rn : RegField) (rs : RegField) (rd : RegField) : Statement (.andRrr rn rs rd) := rfl
theorem xorRrr (rn : RegField) (rs : RegField) (rd : RegField) : Statement (.xorRrr rn rs rd) := rfl
theorem reservedR1x0111 : Statement (.reservedR1x0111) := rfl
theorem reservedR1x1000 : Statement (.reservedR1x1000) := rfl
theorem movwNr (rn : RegField) (rs : RegField) (rd : RegField) : Statement (.movwNr rn rs rd) := rfl
theorem movzbNr (rn : RegField) (rs : RegField) (rd : RegField) : Statement (.movzbNr rn rs rd) := rfl
theorem movsbNr (rn : RegField) (rs : RegField) (rd : RegField) : Statement (.movsbNr rn rs rd) := rfl
theorem movwRn (rn : RegField) (rs : RegField) (rd : RegField) : Statement (.movwRn rn rs rd) := rfl
theorem movbRn (rn : RegField) (rs : RegField) (rd : RegField) : Statement (.movbRn rn rs rd) := rfl
theorem selCrrr (cc : Cond) (rn : RegField) (rs : RegField) (rd : RegField) : Statement (.selCrrr cc rn rs rd) := rfl
theorem setCr (cc : Cond) (rd : RegField) : Statement (.setCr cc rd) := rfl
theorem movRr (rs : RegField) (rd : RegField) : Statement (.movRr rs rd) := rfl
theorem cmpRr (rs : RegField) (rd : RegField) : Statement (.cmpRr rs rd) := rfl
theorem zextRr (rs : RegField) (rd : RegField) : Statement (.zextRr rs rd) := rfl
theorem sextRr (rs : RegField) (rd : RegField) : Statement (.sextRr rs rd) := rfl
theorem bswapRr (rs : RegField) (rd : RegField) : Statement (.bswapRr rs rd) := rfl
theorem sextwRr (rs : RegField) (rd : RegField) : Statement (.sextwRr rs rd) := rfl
theorem reservedR2x110x000 : Statement (.reservedR2x110x000) := rfl
theorem movwPr (rs : RegField) (rd : RegField) : Statement (.movwPr rs rd) := rfl
theorem lsrRr (rs : RegField) (rd : RegField) : Statement (.lsrRr rs rd) := rfl
theorem lslRr (rs : RegField) (rd : RegField) : Statement (.lslRr rs rd) := rfl
theorem asrRr (rs : RegField) (rd : RegField) : Statement (.asrRr rs rd) := rfl
theorem reservedR2x011x001 : Statement (.reservedR2x011x001) := rfl
theorem reservedR2x100x001 : Statement (.reservedR2x100x001) := rfl
theorem negRr (rs : RegField) (rd : RegField) : Statement (.negRr rs rd) := rfl
theorem notRr (rs : RegField) (rd : RegField) : Statement (.notRr rs rd) := rfl
theorem reservedR2x111x001 : Statement (.reservedR2x111x001) := rfl
theorem jmpR (rd : RegField) : Statement (.jmpR rd) := rfl
theorem callR (rd : RegField) : Statement (.callR rd) := rfl
theorem pushR (rd : RegField) : Statement (.pushR rd) := rfl
theorem popR (rd : RegField) : Statement (.popR rd) := rfl
theorem reservedR2x100x100 : Statement (.reservedR2x100x100) := rfl
theorem reservedR2x101x100 : Statement (.reservedR2x101x100) := rfl
theorem movTr (rd : RegField) : Statement (.movTr rd) := rfl
theorem movRt (rd : RegField) : Statement (.movRt rd) := rfl
theorem ret : Statement (.ret) := rfl
theorem reti : Statement (.reti) := rfl
theorem dint : Statement (.dint) := rfl
theorem eint : Statement (.eint) := rfl
theorem halt : Statement (.halt) := rfl
theorem reservedR2x101x110 : Statement (.reservedR2x101x110) := rfl
theorem reservedR2x110x110 : Statement (.reservedR2x110x110) := rfl
theorem reservedR2x111x110 : Statement (.reservedR2x111x110) := rfl
theorem reservedR2any010 : Statement (.reservedR2any010) := rfl
theorem reservedR2any011 : Statement (.reservedR2any011) := rfl
theorem reservedR2any101 : Statement (.reservedR2any101) := rfl
theorem movwAr (addr : Word) (rd : RegField) : Statement (.movwAr addr rd) := rfl
theorem movzbAr (addr : Word) (rd : RegField) : Statement (.movzbAr addr rd) := rfl
theorem movsbAr (addr : Word) (rd : RegField) : Statement (.movsbAr addr rd) := rfl
theorem movwRa (addr : Word) (rd : RegField) : Statement (.movwRa addr rd) := rfl
theorem movbRa (addr : Word) (rd : RegField) : Statement (.movbRa addr rd) := rfl

end Sys2Proof.Laws.WordCount
end

