-- ==== Sys2Proof/Tests/Slice0.lean ====
section
/-! SUPPORT. The model's own tests. Expected values come from spec/95_test_vectors.md and from words
written out from the encodings of spec/30_encoding.md and spec/40_prefix.md. At the end, for every
obligation with hypotheses, a concrete state and operands that meet them. -/

open Sys2Proof Sys2Proof.Machine Sys2Proof.Claim

namespace Sys2Proof.Tests

/-! ### Helpers -/

/-- Memory listing what `cells` gives, each written in turn. -/
def listed {w : Nat} (cells : List (Nat × BitVec w)) : Mem w :=
  cells.foldl (fun m c => m.write c.1 c.2) []

/-- The state after reset with R1, R2, R3, SP, the flags and data bytes as a vector gives them. -/
structure Before where
  r1 : Word := 0
  r2 : Word := 0
  r3 : Word := 0
  sp : Word := 0x1000
  pc : Word := 0
  flags : Status := ⟨false, false, false, false, false, false, false⟩
  bytes : List (Nat × Byte) := []
  params : Params := Config.vectorParams

/-- The state of a vector, with its words placed from pc on. -/
def Before.state (b : Before) (words : List Word) : State :=
  { State.reset with
    regs := ⟨0x5555, b.r1, b.r2, b.r3, 0, 0x7777, 0⟩, sp := b.sp, pc := b.pc, status := b.flags,
    dmem := listed b.bytes, params := b.params,
    pmem := listed (words.zipIdx.map fun p => ((b.pc + BitVec.ofNat 16 p.2).toNat, p.1)) }

/-- One step per word. -/
def Before.run (b : Before) (words : List Word) : Host.Outcome State Fault Refusal :=
  Host.Core.run Sys2Proof.core words.length (b.state words)

/-- The run answers a next state that satisfies `p`, with no prefix pending. -/
def Before.gives (b : Before) (words : List Word) (p : State → Bool) : Bool :=
  match b.run words with
  | .next t => p t && t.pfx.isNone
  | _ => false

/-- The run is refused for the reason `r`. -/
def Before.refuses (b : Before) (words : List Word) (r : Refusal) : Bool :=
  match b.run words with
  | .refused q => q == r
  | _ => false

/-- Flags from the six digits Z S C V AC AZ of a vector, with I = 0. -/
def flags (z s c v ac az : Bool) : Status := ⟨false, v, s, c, z, ac, az⟩

/-- The word at an even address, little. -/
def wordIn (t : State) (a : Word) : Word := t.byteAt (a + 1) ++ t.byteAt a

/-- Big byte order, the branch word as the base. -/
def otherParams : Params := { Config.vectorParams with byteOrder := .big, brBase := .branchWord }

/-- Data memory populated from 0x0000 to 0x7FFF only, program memory at 0x0000 only. -/
def smallParams : Params :=
  { Config.vectorParams with dmemRange := [⟨0, 0x7FFF⟩], pmemRange := [⟨0, 0⟩] }

/-! ### WellFormed: one ill-formed term per check, refused -/

theorem test_wellFormed_accepts_r6 : Instr.wellFormed (.addRrr 6 6 6) = true := by decide
theorem test_wellFormed_refuses_rs7 : Instr.wellFormed (.movRr 7 0) = false := by decide
theorem test_wellFormed_refuses_rn7 : Instr.wellFormed (.addRrr 7 0 0) = false := by decide
theorem test_wellFormed_refuses_rd7 : Instr.wellFormed (.movKr 0 7) = false := by decide
theorem test_wellFormed_refuses_lone_rd7 : Instr.wellFormed (.pushR 7) = false := by decide
theorem test_wellFormed_refuses_absolute_rd7 : Instr.wellFormed (.movwAr 0 7) = false := by decide
theorem test_wellFormed_ignores_zeroed_rs :
    (Instr.usedFields true (.movwMr 0 7 0)).all RegField.named = true := by decide
theorem test_runsUnder_refuses_pfix_r1 :
    Instr.runsUnder (.addRrr 0 0 0) (some ⟨false, 0⟩) = false := by decide
theorem test_runsUnder_refuses_pfixz_i2 :
    Instr.runsUnder (.movKr 0 0) (some ⟨true, 0⟩) = false := by decide
theorem test_runsUnder_refuses_r2 :
    Instr.runsUnder (.movRr 0 0) (some ⟨false, 0⟩) = false := by decide
theorem test_runsUnder_refuses_prefix_after_prefix :
    Instr.runsUnder (.pfixK 0) (some ⟨true, 0⟩) = false := by decide

/-! ### Decoding: words written out from 30_encoding.md and 40_prefix.md -/

/-- Every core row of the opcode table: the row's own word decodes to the instruction of that name. -/
theorem test_decode_rows :
    (opcodeRows.all fun r => (decode none r.fit).mnemonic == r.name) = true := by decide

theorem test_decode_prefixes :
    decode none 0b11110_00010010001 = .pfixK 0x091 ∧
    decode none 0b11111_11111111111 = .pfixzK 0x7FF := by decide

theorem test_decode_i1 :
    decode none 0b01000_11111_001_010 = .leaMr 31 1 2 ∧
    decode none 0b01001_00010_001_010 = .movwMr 2 1 2 ∧
    decode none 0b01010_00011_001_010 = .movzbMr 3 1 2 ∧
    decode none 0b01011_00011_001_010 = .movsbMr 3 1 2 ∧
    decode none 0b01100_00100_001_010 = .movwRm 4 1 2 ∧
    decode none 0b01101_00001_001_010 = .movbRm 1 1 2 ∧
    decode none 0b01110_10101_011_110 = .reservedI1x110 ∧
    decode none 0b01111_11111_111_111 = .reservedI1x111 := by decide

theorem test_decode_i2 :
    decode none 0b10000_11111010_010 = .movKr 0xFA 2 ∧
    decode none 0b10001_00001010_001 = .cmpRk 10 1 ∧
    decode none 0b10010_00000101_001 = .addKr 5 1 ∧
    decode none 0b10011_00000001_001 = .subKr 1 1 ∧
    decode none 0b10100_00001111_001 = .andKr 0x0F 1 ∧
    decode none 0b10101_10000000_001 = .orKr 0x80 1 ∧
    decode none 0b10110_11111111_001 = .leaSr 255 1 ∧
    decode none 0b10111_00000010_001 = .movwSr 2 1 ∧
    decode none 0b11000_00000001_001 = .movsbSr 1 1 ∧
    decode none 0b11001_11111111_001 = .movzbSr 255 1 ∧
    decode none 0b11010_00000100_001 = .movwRs 4 1 ∧
    decode none 0b11011_00000101_001 = .movbRs 5 1 := by decide

theorem test_decode_j_and_r1 :
    decode none 0b1110_001_111111101 = .brCk .ne 0x1FD ∧
    decode none 0b001_1110_000010000 = .jmpK 16 ∧
    decode none 0b001_1111_000000101 = .callK 5 ∧
    decode none 0b001_0000_010_001_011 = .addRrr 2 1 3 ∧
    decode none 0b001_0001_010_001_011 = .adcRrr 2 1 3 ∧
    decode none 0b001_0010_010_001_011 = .subRrr 2 1 3 ∧
    decode none 0b001_0011_010_001_011 = .subcRrr 2 1 3 ∧
    decode none 0b001_0100_010_001_011 = .orRrr 2 1 3 ∧
    decode none 0b001_0101_010_001_011 = .andRrr 2 1 3 ∧
    decode none 0b001_0110_010_001_011 = .xorRrr 2 1 3 ∧
    decode none 0b001_0111_010_001_011 = .reservedR1x0111 ∧
    decode none 0b001_1000_111_111_111 = .reservedR1x1000 ∧
    decode none 0b001_1001_010_001_011 = .movwNr 2 1 3 ∧
    decode none 0b001_1010_010_001_011 = .movzbNr 2 1 3 ∧
    decode none 0b001_1011_010_001_011 = .movsbNr 2 1 3 ∧
    decode none 0b001_1100_010_001_011 = .movwRn 2 1 3 ∧
    decode none 0b001_1101_010_001_011 = .movbRn 2 1 3 ∧
    decode none 0b0001_110_010_001_011 = .selCrrr .ugt 2 1 3 := by decide

theorem test_decode_r2 :
    decode none 0b0000_101_111_000_011 = .setCr .lt 3 ∧
    decode none 0b0000_000_000_011_100 = .movRr 3 4 ∧
    decode none 0b0000_001_000_010_001 = .cmpRr 2 1 ∧
    decode none 0b0000_010_000_001_010 = .zextRr 1 2 ∧
    decode none 0b0000_011_000_001_010 = .sextRr 1 2 ∧
    decode none 0b0000_100_000_001_001 = .bswapRr 1 1 ∧
    decode none 0b0000_101_000_001_010 = .sextwRr 1 2 ∧
    decode none 0b0000_111_000_001_010 = .movwPr 1 2 ∧
    decode none 0b0000_000_001_001_010 = .lsrRr 1 2 ∧
    decode none 0b0000_001_001_001_010 = .lslRr 1 2 ∧
    decode none 0b0000_010_001_001_010 = .asrRr 1 2 ∧
    decode none 0b0000_101_001_001_010 = .negRr 1 2 ∧
    decode none 0b0000_110_001_001_010 = .notRr 1 2 := by decide

theorem test_decode_r2_one_register_and_none :
    decode none 0b0000_000_100_000_011 = .jmpR 3 ∧
    decode none 0b0000_001_100_000_011 = .callR 3 ∧
    decode none 0b0000_010_100_111_000 = .pushR 0 ∧
    decode none 0b0000_011_100_000_010 = .popR 2 ∧
    decode none 0b0000_110_100_000_001 = .movTr 1 ∧
    decode none 0b0000_111_100_000_001 = .movRt 1 ∧
    decode none 0b0000_000_110_111_111 = .ret ∧
    decode none 0b0000_001_110_000_000 = .reti ∧
    decode none 0b0000_010_110_000_000 = .dint ∧
    decode none 0b0000_011_110_000_000 = .eint ∧
    decode none 0b0000_100_110_111_111 = .halt := by decide

/-- The Reserved words of format R2, at other low bits than the row's own. -/
theorem test_decode_r2_reserved :
    decode none 0b0000_110_000_111_111 = .reservedR2x110x000 ∧
    decode none 0b0000_011_001_000_001 = .reservedR2x011x001 ∧
    decode none 0b0000_100_001_000_001 = .reservedR2x100x001 ∧
    decode none 0b0000_111_001_111_111 = .reservedR2x111x001 ∧
    decode none 0b0000_100_100_000_001 = .reservedR2x100x100 ∧
    decode none 0b0000_101_100_000_001 = .reservedR2x101x100 ∧
    decode none 0b0000_101_110_000_001 = .reservedR2x101x110 ∧
    decode none 0b0000_110_110_000_001 = .reservedR2x110x110 ∧
    decode none 0b0000_111_110_111_111 = .reservedR2x111x110 ∧
    decode none 0b0000_111_010_000_001 = .reservedR2any010 ∧
    decode none 0b0000_101_011_000_001 = .reservedR2any011 ∧
    decode none 0b0000_010_101_000_001 = .reservedR2any101 := by decide

/-- The prefixed forms: the I1 words of 40_prefix.md R126 under the `pfixz_k` of 95_test_vectors.md
section 2.6; with no prefix and with `pfix_k` the same words are the core loads and stores. -/
theorem test_decode_prefixed_forms :
    decode (some ⟨true, 0x400⟩) 0b01001_00010_000_011 = .movwAr 0x8002 3 ∧
    decode (some ⟨true, 0x400⟩) 0b01010_00010_000_011 = .movzbAr 0x8002 3 ∧
    decode (some ⟨true, 0x7FF⟩) 0b01011_11111_000_011 = .movsbAr 0xFFFF 3 ∧
    decode (some ⟨true, 0x010⟩) 0b01100_00000_000_010 = .movwRa 0x0200 2 ∧
    decode (some ⟨true, 0x010⟩) 0b01101_00001_111_010 = .movbRa 0x0201 2 ∧
    decode (some ⟨true, 0x091⟩) 0b01000_10100_101_010 = .leaMr 0x14 5 2 ∧
    decode (some ⟨false, 0x400⟩) 0b01001_00010_000_011 = .movwMr 2 0 3 := by decide

theorem test_encode_absolute : encode (.movwAr 0x8002 3) = [0xFC00, 0x4883] := by decide
theorem test_decodeTableWord : decodeTableWord 16 0x208B = some (.addRrr 2 1 3) := by decide

/-! ### One step: the vectors of 95_test_vectors.md, section by section -/

/-- Section 2.2, R1 and R2 before, the flag AC before, R3 (or R1, R2) and the flags Z S C V AC AZ after. -/
theorem test_arithmetic_immediate :
    Before.gives { r1 := 0xFFFB } [0x9029] (fun t => t.regs.r1 == 0 &&
      t.status == flags true false true false true true) = true ∧
    Before.gives { r1 := 0x7F01 } [0x97F9] (fun t => t.regs.r1 == 0x8000 &&
      t.status == flags false true false true false false) = true ∧
    Before.gives { r1 := 0x8000 } [0xF400, 0x9001] (fun t => t.regs.r1 == 0 && t.pc == 2 &&
      t.status == flags true false true true true true) = true ∧
    Before.gives { r1 := 0 } [0x9809] (fun t => t.regs.r1 == 0xFFFF &&
      t.status == flags false true false false false false) = true ∧
    Before.gives { r1 := 0x8000 } [0x9809] (fun t => t.regs.r1 == 0x7FFF &&
      t.status == flags false false true true true false) = true := by decide

theorem test_arithmetic_add :
    Before.gives { r1 := 0x7FFF, r2 := 1 } [0x208B] (fun t => t.regs.r3 == 0x8000 &&
      t.status == flags false true false true false false) = true ∧
    Before.gives { r1 := 0x8000, r2 := 0x8000 } [0x208B] (fun t => t.regs.r3 == 0 &&
      t.status == flags true false true true true true) = true ∧
    Before.gives { r1 := 1, r2 := 0xFFFF, flags := flags false false false false true false } [0x228B]
      (fun t => t.regs.r3 == 1 && t.status == flags false false true false true false) = true ∧
    Before.gives { r1 := 1, r2 := 2, flags := flags false false true false false false } [0x228B]
      (fun t => t.regs.r3 == 3 && t.status == flags false false false false false false) = true ∧
    Before.gives { r1 := 0x1111, r2 := 0x22 } [0xF800, 0x208B] (fun t => t.regs.r3 == 0x22 &&
      t.regs.r1 == 0x1111 && t.status == flags false false false false false false) = true := by decide

theorem test_arithmetic_sub :
    Before.gives { r1 := 5, r2 := 5 } [0x248B] (fun t => t.regs.r3 == 0 &&
      t.status == flags true false true false true true) = true ∧
    Before.gives { r1 := 0x7FFF, r2 := 0xFFFF } [0x248B] (fun t => t.regs.r3 == 0x8000 &&
      t.status == flags false true false true false false) = true ∧
    Before.gives { r1 := 5, r2 := 3, flags := flags false false false false true false } [0x268B]
      (fun t => t.regs.r3 == 2 && t.status == flags false false true false true false) = true ∧
    Before.gives { r1 := 0x1234, r2 := 0xFFFF } [0x268B] (fun t => t.regs.r3 == 0x1234 &&
      t.status == flags false false false false false false) = true ∧
    Before.gives { r1 := 0x8000 } [0x0A4A] (fun t => t.regs.r2 == 0x8000 &&
      t.status == flags false true false true false false) = true ∧
    Before.gives { r1 := 0 } [0x0A4A] (fun t => t.regs.r2 == 0 &&
      t.status == flags true false true false true true) = true := by decide

/-- Section 2.3: results, Z and S; C and V are free draws; AC and AZ are kept. -/
theorem test_logic :
    Before.gives { r1 := 0x1234, flags := flags true true false false true true } [0xA079]
      (fun t => t.regs.r1 == 4 && !t.status.z && !t.status.s && t.status.ac && t.status.az) = true ∧
    Before.gives { r1 := 0x1234 } [0xF7F8, 0xA001] (fun t => t.regs.r1 == 0x1200) = true ∧
    Before.gives { r1 := 1 } [0xAC01] (fun t => t.regs.r1 == 0x81 && !t.status.s) = true ∧
    Before.gives { r1 := 1 } [0xF400, 0xA801] (fun t => t.regs.r1 == 0x8001 && t.status.s) = true ∧
    Before.gives { r1 := 0xF0F0, r2 := 0x0F0F } [0x2A8B] (fun t => t.regs.r3 == 0 && t.status.z) = true ∧
    Before.gives { r1 := 0xF0F0, r2 := 0x0F0F } [0x288B]
      (fun t => t.regs.r3 == 0xFFFF && t.status.s) = true ∧
    Before.gives { r1 := 0xFFFF, r2 := 0x00FF } [0x2C8B] (fun t => t.regs.r3 == 0xFF00) = true ∧
    Before.gives { r1 := 0x00FF } [0x0C4A] (fun t => t.regs.r2 == 0xFF00 && t.status.s) = true := by
  decide

/-- Section 2.3: the extensions, shifts and swap, which keep all six flags. -/
theorem test_extensions_and_shifts :
    ([(0x040A, 0xABCD, 0x00CD), (0x060A, 0x1280, 0xFF80), (0x060A, 0xFF7F, 0x007F),
      (0x0A0A, 0x8000, 0xFFFF), (0x0A0A, 0x7FFF, 0x0000), (0x004A, 0x8001, 0x4000),
      (0x024A, 0xC001, 0x8002), (0x044A, 0x8001, 0xC000), (0x044A, 0x7FFF, 0x3FFF),
      (0x080A, 0x00FF, 0xFF00)].all fun (w, a, r) =>
        Before.gives { r1 := a, flags := flags true true true true true true } [w] fun t =>
          t.regs.r2 == r && t.status == flags true true true true true true) = true := by decide

/-- Section 2.4: `cmp R1, R2`, the flags Z S C V, and the eight conditions in the order of their codes. -/
theorem test_compare_and_conditions :
    ([(0x0005, 0x0005, [true, false, true, false, true, false, false, false]),
      (0x0003, 0x0005, [false, true, false, true, false, true, false, false]),
      (0x0005, 0x0003, [false, true, true, false, true, false, true, true]),
      (0xFFFF, 0x0001, [false, true, true, false, false, true, true, false]),
      (0x0001, 0xFFFF, [false, true, false, true, true, false, false, true]),
      (0x8000, 0x7FFF, [false, true, true, false, false, true, true, false]),
      (0x7FFF, 0x8000, [false, true, false, true, true, false, false, true]),
      (0x0000, 0x8000, [false, true, false, true, true, false, false, true])].all fun (a, b, holds) =>
        Before.gives { r1 := a, r2 := b } [0x0211] fun t =>
          [Cond.eq, .ne, .uge, .ult, .ge, .lt, .ugt, .gt].map t.status.holds == holds) = true := by
  decide

/-- Section 2.4: `cmp Rd, K` extends the sign of K; AC and AZ are kept. -/
theorem test_compare_immediate :
    Before.gives { r1 := 0xFFFF } [0x8FF9]
      (fun t => t.status == flags true false true false false false) = true ∧
    Before.gives { r1 := 0x0005, flags := flags false false false false true true } [0x8FD9]
      (fun t => t.status == flags false false false false true true) = true ∧
    Before.gives { r1 := 0x0080 } [0x8C01]
      (fun t => t.status == flags false false false false false false) = true ∧
    Before.gives { r1 := 0x1234 } [0xF091, 0x88A1]
      (fun t => t.status == flags true false true false false false) = true := by decide

/-- Section 2.5 and section 2.1: moves and address sums. -/
theorem test_moves_and_address_sums :
    Before.gives {} [0x87D2] (fun t => t.regs.r2 == 0xFFFA && t.pc == 1) = true ∧
    Before.gives {} [0xF091, 0x80A1] (fun t => t.regs.r1 == 0x1234 && t.pc == 2) = true ∧
    Before.gives {} [0xF007, 0x80FA] (fun t => t.regs.r2 == 0x00FF) = true ∧
    Before.gives { r3 := 0xBEEF } [0x001C] (fun t => t.regs.r4 == 0xBEEF) = true ∧
    Before.gives { sp := 0xFF80 } [0xB7F9] (fun t => t.regs.r1 == 0x007F && t.sp == 0xFF80) = true ∧
    Before.gives { r1 := 0xFFF0 } [0x47CA] (fun t => t.regs.r2 == 0x000F) = true ∧
    Before.gives { r1 := 0x0234 } [0xF080, 0x400A] (fun t => t.regs.r2 == 0x1234) = true ∧
    Before.gives {} [0xF891, 0x452A] (fun t => t.regs.r2 == 0x1234 && t.regs.r5 == 0x7777) = true := by
  decide

theorem test_select_and_set :
    Before.gives { r1 := 0xAAAA, r2 := 0xBBBB, flags := flags true false false false false false } [0x108B]
      (fun t => t.regs.r3 == 0xAAAA) = true ∧
    Before.gives { r1 := 0xAAAA, r2 := 0xBBBB, flags := flags true false true false false false } [0x1C8B]
      (fun t => t.regs.r3 == 0xBBBB) = true ∧
    Before.gives { r2 := 0xBBBB } [0xF800, 0x1284] (fun t => t.regs.r4 == 0) = true ∧
    Before.gives { flags := flags false true false false false false } [0x0BC3]
      (fun t => t.regs.r3 == 1) = true ∧
    Before.gives { r3 := 9, flags := flags false true false true false false } [0x0BC3]
      (fun t => t.regs.r3 == 0) = true := by decide

/-- Section 2.6: loads. -/
theorem test_loads :
    Before.gives { r1 := 0x0101, bytes := [(0x0102, 0x34), (0x0103, 0x12)] } [0x484A]
      (fun t => t.regs.r2 == 0x1234) = true ∧
    Before.gives { r1 := 0x0100, bytes := [(0x0103, 0x80)] } [0x50CA]
      (fun t => t.regs.r2 == 0x0080) = true ∧
    Before.gives { r1 := 0x0100, bytes := [(0x0103, 0x80)] } [0x58CA]
      (fun t => t.regs.r2 == 0xFF80) = true ∧
    Before.gives { r1 := 0xFFFF, bytes := [(0x0002, 0x7F)] } [0x50CA]
      (fun t => t.regs.r2 == 0x007F) = true ∧
    Before.gives { bytes := [(0x8002, 0x11), (0x8003, 0x22)] } [0xFC00, 0x4883]
      (fun t => t.regs.r3 == 0x2211 && t.pc == 2) = true ∧
    Before.gives { bytes := [(0xFFFF, 0xFE)] } [0xFFFF, 0x5FC3] (fun t => t.regs.r3 == 0xFFFE) = true ∧
    Before.gives { bytes := [(0x8002, 0x91)] } [0xFC00, 0x5083] (fun t => t.regs.r3 == 0x0091) = true ∧
    Before.gives { sp := 0x0FFC, bytes := [(0x0FFE, 0x34), (0x0FFF, 0x12)] } [0xB811]
      (fun t => t.regs.r1 == 0x1234 && t.sp == 0x0FFC) = true ∧
    Before.gives { bytes := [(0x10FF, 0x9C)] } [0xCFF9] (fun t => t.regs.r1 == 0x009C) = true ∧
    Before.gives { bytes := [(0x1001, 0x9C)] } [0xC009] (fun t => t.regs.r1 == 0xFF9C) = true := by
  decide

theorem test_indexed_loads :
    Before.gives { r1 := 0x0100, r2 := 0x0010, bytes := [(0x0110, 0x34), (0x0111, 0x12)] } [0x328B]
      (fun t => t.regs.r3 == 0x1234) = true ∧
    Before.gives { r1 := 0x0100, r2 := 0xFFFF, bytes := [(0x00FF, 0xF0)] } [0x348B]
      (fun t => t.regs.r3 == 0x00F0) = true ∧
    Before.gives { r1 := 0x0100, r2 := 0xFFFF, bytes := [(0x00FF, 0xF0)] } [0x368B]
      (fun t => t.regs.r3 == 0xFFF0) = true ∧
    Before.gives { r1 := 0x0100, r2 := 0x0010, bytes := [(0x0010, 0x34), (0x0011, 0x12)] }
      [0xF800, 0x328B] (fun t => t.regs.r3 == 0x1234) = true := by decide

/-- Section 2.6: stores; a store of a byte leaves its neighbour. -/
theorem test_stores :
    Before.gives { r1 := 0x0100, r2 := 0xABCD } [0x610A] (fun t => wordIn t 0x0104 == 0xABCD) = true ∧
    Before.gives { r1 := 0x0100, r2 := 0xABCD, bytes := [(0x0100, 0x11)] } [0x684A]
      (fun t => wordIn t 0x0100 == 0xCD11) = true ∧
    Before.gives { r2 := 0xABCD } [0xF810, 0x6002] (fun t => wordIn t 0x0200 == 0xABCD) = true ∧
    Before.gives { r2 := 0xABCD } [0xF810, 0x6842] (fun t => t.byteAt 0x0201 == 0xCD) = true ∧
    Before.gives { r1 := 0xBEEF, sp := 0x0FF0 } [0xD021] (fun t => wordIn t 0x0FF4 == 0xBEEF) = true ∧
    Before.gives { r1 := 0xBEEF, sp := 0x0FF0 } [0xD829] (fun t => t.byteAt 0x0FF5 == 0xEF) = true ∧
    Before.gives { r1 := 0x0100, r2 := 0x0010, r3 := 0xCAFE } [0x388B]
      (fun t => wordIn t 0x0110 == 0xCAFE) = true ∧
    Before.gives { r1 := 0x0100, r2 := 0x0011, r3 := 0xCAFE } [0x3A8B]
      (fun t => t.byteAt 0x0111 == 0xFE) = true := by decide

/-- Section 2.7: the stack and program memory. -/
theorem test_stack_and_program_memory :
    Before.gives { r1 := 0xBEEF } [0x0501]
      (fun t => t.sp == 0x0FFE && wordIn t 0x0FFE == 0xBEEF && t.pc == 1) = true ∧
    Before.gives { r1 := 0xBEEF, sp := 0 } [0x0501]
      (fun t => t.sp == 0xFFFE && wordIn t 0xFFFE == 0xBEEF) = true ∧
    Before.gives { sp := 0xFFFE, bytes := [(0xFFFE, 0xEF), (0xFFFF, 0xBE)] } [0x0702]
      (fun t => t.sp == 0 && t.regs.r2 == 0xBEEF) = true ∧
    Before.gives { r1 := 0x0040, pc := 0x0040 } [0x0E0A]
      (fun t => t.regs.r2 == 0x0E0A && t.pc == 0x0041) = true := by decide

/-- Section 2.8: branches and jumps. -/
theorem test_branches_and_jumps :
    Before.gives { pc := 0x0010, flags := flags true false false false false false } [0xE003]
      (fun t => t.pc == 0x0014) = true ∧
    Before.gives { pc := 0x0010 } [0xE003] (fun t => t.pc == 0x0011) = true ∧
    Before.gives { pc := 0x0020 } [0xE3FD] (fun t => t.pc == 0x001E) = true ∧
    Before.gives { pc := 0x0100 } [0xE700] (fun t => t.pc == 0x0001) = true ∧
    Before.gives { flags := flags true false false false false false } [0xF091, 0xE014]
      (fun t => t.pc == 0x1236) = true ∧
    Before.gives { pc := 0x0100 } [0x3DFF] (fun t => t.pc == 0x0100) = true ∧
    Before.gives { pc := 0xFFFF } [0x3C00] (fun t => t.pc == 0x0000) = true ∧
    Before.gives { pc := 0x0100 } [0xF7FF, 0x3C1E] (fun t => t.pc == 0x0100) = true ∧
    Before.gives { pc := 0x0010, r3 := 0xABCD } [0x0103] (fun t => t.pc == 0xABCD) = true := by decide

theorem test_calls_and_return :
    Before.gives { pc := 0x0100 } [0x3E05]
      (fun t => t.pc == 0x0106 && t.sp == 0x0FFE && wordIn t 0x0FFE == 0x0101) = true ∧
    Before.gives { pc := 0x0100 } [0xF100, 0x3E00]
      (fun t => t.pc == 0x2102 && wordIn t 0x0FFE == 0x0102) = true ∧
    Before.gives { pc := 0x0050, r3 := 0x0200 } [0x0303]
      (fun t => t.pc == 0x0200 && t.sp == 0x0FFE && wordIn t 0x0FFE == 0x0051) = true ∧
    Before.gives { pc := 0x0200, sp := 0x0FFE, bytes := [(0x0FFE, 0x51), (0x0FFF, 0)] } [0x01BF]
      (fun t => t.pc == 0x0051 && t.sp == 0x1000) = true := by decide

/-- Section 2.9. -/
theorem test_system :
    Before.gives {} [0x0780] (fun t => t.status.i && t.pc == 1) = true ∧
    Before.gives { flags := ⟨true, false, false, false, false, false, false⟩ } [0x0580]
      (fun t => !t.status.i) = true ∧
    Before.gives { pc := 0x0030 } [0x09BF] (fun t => t.halted && t.pc == 0x0031) = true ∧
    Before.refuses {} [0x0380] .retiUnspecified = true ∧
    Before.refuses {} [0x0D01] .notImplemented = true ∧
    Before.refuses {} [0x0F01] .notImplemented = true := by decide

/-- Section 2.10: the refusals and their order. -/
theorem test_refusals :
    ([([0x7FFF], .reservedEncoding), ([0x31FF], .reservedEncoding), ([0x0140], .reservedEncoding),
      ([0x0D3F], .notImplemented), ([0x0007], .registerField7), ([0x0038], .registerField7),
      ([0x01C7], .registerField7), ([0x0507], .registerField7), ([0x8007], .registerField7),
      ([0x21C8], .registerField7), ([0x4838], .registerField7),
      ([0xF000, 0xF000], .prefixAfterPrefix), ([0xF800, 0xF000], .prefixAfterPrefix),
      ([0xF000, 0x0000], .prefixUndocumented), ([0xF000, 0x2040], .prefixUndocumented),
      ([0xF800, 0x8001], .prefixUndocumented), ([0xF800, 0xE000], .prefixUndocumented),
      ([0xF000, 0x0380], .prefixUndocumented), ([0xF000, 0x0C00], .reservedEncoding),
      ([0xF800, 0x7000], .reservedEncoding), ([0xF000, 0x0D07], .notImplemented),
      ([0xF000, 0x0007], .prefixUndocumented)].all fun (ws, r) =>
        Before.refuses { sp := 0x0FFF } ws r) = true := by decide

theorem test_access_refusals :
    Before.refuses { r1 := 0x0101 } [0x488A] .misalignedWord = true ∧
    Before.refuses { r1 := 0x0101 } [0x488F] .registerField7 = true ∧
    Before.refuses { sp := 0x0FFF } [0x0501] .misalignedWord = true ∧
    Before.refuses { sp := 0x0FFD } [0x0180] .misalignedWord = true ∧
    Before.refuses { params := { smallParams with pmemRange := Config.wholeSpace } } [0xFC00, 0x4883]
      .unpopulatedAddress = true ∧
    Before.refuses { params := smallParams } [0x0000, 0x0000] .unpopulatedAddress = true := by decide

/-- Section 2.11: the other byte order and the other branch base. -/
theorem test_other_params :
    Before.gives { params := otherParams, r1 := 0x0100, bytes := [(0x0102, 0x34), (0x0103, 0x12)] }
      [0x488A] (fun t => t.regs.r2 == 0x3412) = true ∧
    Before.gives { params := otherParams, r1 := 0xBEEF } [0x0501]
      (fun t => t.byteAt 0x0FFE == 0xBE && t.byteAt 0x0FFF == 0xEF) = true ∧
    Before.gives { params := otherParams, pc := 0x0010, flags := flags true false false false false false }
      [0xE003] (fun t => t.pc == 0x0013) = true ∧
    Before.gives { params := otherParams, pc := 0x0100 } [0x3E05]
      (fun t => t.pc == 0x0105 && t.byteAt 0x0FFE == 0x01 && t.byteAt 0x0FFF == 0x01) = true := by decide

/-- Boundaries between instructions (60_exceptions.md R284): a request with I = 1 is refused; under
a pending prefix, or with I = 0, it is passed over. -/
theorem test_interrupt_boundary :
    (match step { State.reset with requests := [true], status := ⟨true, false, false, false, false, false, false⟩ } with
      | .refused r => r == .interruptEntryUnspecified
      | _ => false) = true ∧
    (match step (State.withFetchWord { State.reset with requests := [true] } 16 0x0980) with
      | .next t => t.halted && t.requests.isEmpty
      | _ => false) = true := by decide

/-- An instance of `IntModel` for tests only, no claim about the hardware: entry stores pc on the stack,
clears I and goes to 0x0100, and is refused on an odd SP; `reti` undoes it. -/
def stackingModel : IntModel Bool where
  request present _ := present
  enter s := do
    let t ← s.pushWord s.pc
    return { t with pc := 0x0100, status := { t.status with i := false } }
  resume s := do
    let back ← s.topWord
    return { s.dropWord with pc := back, status := { s.status with i := true } }

/-- I = 1, SP = 0x1000, `nop` at pc. -/
def enabled : State :=
  { (Before.state { pc := 0x0020 } [0x0000]) with status := { State.reset.status with i := true } }

/-- The same at `reti`. -/
def atReti : State := enabled.withFetchWord 16 0x0380

/-- Another instance than the default gives another step: the request is taken, and `reti` returns. -/
theorem test_other_IntModel :
    (match stepUnder stackingModel true enabled with
      | .next t => t.pc == 0x0100 && !t.status.i && t.sp == 0x0FFE && wordIn t 0x0FFE == 0x0020 &&
        (match stepUnder stackingModel false (t.withFetchWord 16 0x0380) with
          | .next u => u.pc == 0x0020 && u.status.i && u.sp == 0x1000
          | _ => false)
      | _ => false) = true ∧
    (match stepUnder stackingModel false enabled with
      | .next t => t.pc == 0x0021
      | _ => false) = true := by decide

/-- A machine that ran `halt`, reset with other registers, flags and data bytes: it leaves H = 1 for
RESET_PC, where the same program word lies as before. -/
theorem test_reset_event :
    let s := (Before.state { pc := 0, sp := 0x0FF0, r1 := 3, bytes := [(5, 7)] } [0x0980])
    let l := { Launch.chosen with regs := ⟨0, 0xBEEF, 0, 0, 0, 0, 0⟩, z := true, dmem := [(5, 8), (6, 9)] }
    (match step s with
      | .next h => h.halted && (match step h with | .fault _ => true | _ => false) &&
        (match advance stackingModel (.reset l) h with
          | .next t => !t.halted && t.pc == 0 && t.sp == 0x1000 && t.regs.r1 == 0xBEEF && t.status.z &&
            t.byteAt 5 == 8 && t.byteAt 6 == 9 && t.progAt 0 == 0x0980
          | _ => false)
      | _ => false) = true := by decide

/-- A reset between a prefix and its core word leaves no prefix pending, at the parameters of its own
machine. -/
theorem test_reset_parameters :
    let p := { otherParams with resetPc := 0x0040, resetSp := 0x2000, resetI := true }
    let t := State.resetTo .chosen { Before.state { pc := 0x0040, params := p } [0x87D2] with
      pfx := some ⟨true, 1⟩, pc := 9 }
    t.pfx = none ∧ t.sp = 0x2000 ∧ t.status.i = true ∧
      (match step t with
        | .next u => u.pc == 0x0041 && u.regs.r2 == 0xFFFA
        | _ => false) = true := by decide

/-- The word placed is fetched and run as the first instruction after reset. -/
theorem test_withFetchWord :
    (match step (State.reset.withFetchWord 16 0x87D2) with
      | .next t => t.regs.r2 == 0xFFFA && t.pc == 1
      | _ => false) = true := by decide

/-! ### Witnesses: for each obligation with hypotheses, a state and operands that meet them -/

/-- A state with a byte listed at each end of data memory, R1 = 0xABCD, SP = 2. -/
def plain : State :=
  { State.reset with regs := ⟨0, 0xABCD, 0x0010, 0xFFFE, 0, 0, 3⟩, sp := 2,
                     dmem := [(0, 0x34), (1, 0x12), (0xFFFF, 0x9C)] }

/-- The same under `pfix_k` with the largest immediate. -/
def underPfix : State := { plain with pfx := some ⟨false, 0x7FF⟩ }

/-- The same under `pfixz_k 0`. -/
def underPfixz : State := { plain with pfx := some ⟨true, 0⟩ }

/-- The same with the small address ranges. -/
def small : State := { plain with params := smallParams }

theorem extendable_plain : Extendable plain := by intro p; simp [plain, State.reset]
theorem extendable_underPfix : Extendable underPfix := by intro p; simp [underPfix]
theorem not_extendable_underPfixz : ¬ Extendable underPfixz := fun h => h 0 rfl

/-- A register read with no prefix, the last register; and the field 7 read as zero. -/
theorem r1Base_witnesses :
    R1Base plain 6 3 ∧ R1Base underPfixz 7 0 := ⟨.inl ⟨rfl, .r6, rfl, rfl⟩, .inr ⟨0, rfl, rfl⟩⟩

theorem i1Base_witnesses :
    I1Base plain 6 3 ∧ I1Base underPfix 1 0xABCD ∧ I1Base underPfixz 7 0 :=
  ⟨.inl ⟨extendable_plain, .r6, rfl, rfl⟩, .inl ⟨extendable_underPfix, .r1, rfl, rfl⟩,
    .inr ⟨0, rfl, rfl⟩⟩

/-- Words fit at both ends of data memory, and at the last even address of a small block. -/
theorem wordFits_witnesses :
    WordFits plain 0 ∧ WordFits plain 0xFFFE ∧ WordFits small 0x7FFE := by
  unfold WordFits; decide

/-- `lea` under `pfixz_k`, the last word before the loads and the first after the stores; and a load with
no prefix and under `pfix_k`. -/
theorem witness_WordsFallInOneRow :
    (∀ w ∈ [0x47FF#16, 0x7000#16],
      w.extractLsb' 11 5 ∉ [0b01001#5, 0b01010#5, 0b01011#5, 0b01100#5, 0b01101#5]) ∧
    (∀ p, (none : Option Pfx) ≠ some ⟨true, p⟩) ∧ ∀ p, some (⟨false, 0x7FF⟩ : Pfx) ≠ some ⟨true, p⟩ :=
  ⟨by simp, by simp, by simp⟩

theorem witness_DontCareBitsIgnored :
    ((0x007 : BitVec 10).extractLsb' 6 4 = 0 ∧ (0x007 : BitVec 10).extractLsb' 0 3 = 0b111) ∧
    ((0x03F : BitVec 10).extractLsb' 6 4 = 0 ∧ (0x03F : BitVec 10).extractLsb' 0 3 = 0b111) ∧
    (0x01C : BitVec 10) ∈ [0x004, 0x00C, 0x014, (0x01C : BitVec 10)] ∧
    (0x026 : BitVec 10) ∈ [0x006, 0x00E, 0x016, 0x01E, (0x026 : BitVec 10)] := by decide

theorem witness_PrefixWords : plain.pfx = none ∧ underPfix.pfx ≠ none ∧ underPfixz.pfx ≠ none := by
  decide

theorem witness_LongMoveTakesTwoSteps :
    let s := { Before.state { pc := 0xFFFF } [0xF091, 0x80A1] with requests := [false, false, false] }
    s.halted = false ∧ s.pfx = none ∧ (∀ present ∈ s.requests, present = false) ∧ s.progPopulated s.pc = true ∧
      s.progPopulated (s.pc + 1) = true ∧
      s.progAt s.pc = 0b11110#5 ++ (0x1234 : Word).extractLsb' 5 11 ∧
      s.progAt (s.pc + 1) = 0b10000#5 ++ 0#3 ++ (0x1234 : Word).extractLsb' 0 5 ++ fieldOfReg .r1 := by
  decide

theorem witness_AbsoluteLoadTakesTwoSteps :
    let s := { Before.state {} [0xFFFF, 0x4FBB] with requests := [false] }
    s.halted = false ∧ s.pfx = none ∧ (∀ present ∈ s.requests, present = false) ∧ s.progPopulated s.pc = true ∧
      s.progPopulated (s.pc + 1) = true ∧
      s.progAt s.pc = 0b11111#5 ++ (0xFFFE : Word).extractLsb' 5 11 ∧
      s.progAt (s.pc + 1) = 0b01001#5 ++ (0xFFFE : Word).extractLsb' 0 5 ++ 7#3 ++ fieldOfReg .r3 ∧
      WordFits s 0xFFFE := by
  unfold WordFits; decide

theorem witness_AbsoluteFormsAreZeroedCores :
    underPfixz.pfx = some ⟨true, (0x001F : Word).extractLsb' 5 11⟩ := by decide

theorem witness_ImmediateArithmetic : Extendable plain ∧ Extendable underPfix :=
  ⟨extendable_plain, extendable_underPfix⟩

theorem witness_ThreeRegisterArithmetic : R1Base plain 6 3 ∧ R1Base underPfixz 7 0 := r1Base_witnesses

theorem witness_Negate : plain.pfx = none := rfl

theorem witness_MultiWordChain :
    plain.pfx = none ∧ Reg.r0 ≠ .r1 ∧ Reg.r0 ≠ .r3 ∧ Reg.r0 ≠ .r6 := by decide

theorem witness_LogicInstructions :
    Extendable underPfix ∧ R1Base underPfixz 7 0 ∧ R1Base plain 6 3 ∧ plain.pfx = none :=
  ⟨extendable_underPfix, r1Base_witnesses.2, r1Base_witnesses.1, rfl⟩

theorem witness_MovesExtensionsShifts :
    plain.pfx = none ∧ underPfix.pfx ≠ none ∧ (plain.pfx = none ∧ ((7 : RegField) = 7 ∨ (0 : RegField) = 7)) ∧
      (plain.pfx = none ∧ ((0 : RegField) = 7 ∨ (7 : RegField) = 7)) := by decide

theorem witness_Compares : Extendable plain ∧ Extendable underPfix ∧ plain.pfx = none :=
  ⟨extendable_plain, extendable_underPfix, rfl⟩

theorem witness_CompareThenConditions :
    (∃ t, exec (.cmpRr (fieldOfReg .r1) (fieldOfReg .r6)) plain = .next t) ∧
    (∃ t, exec (.cmpRk 0x80 (fieldOfReg .r6)) plain = .next t) ∧
    (∃ t, exec (.cmpRk 0x80 (fieldOfReg .r6)) underPfix = .next t) :=
  ⟨⟨_, rfl⟩, ⟨_, rfl⟩, ⟨_, rfl⟩⟩

theorem witness_AddressSums :
    I1Base plain 6 3 ∧ I1Base underPfix 1 0xABCD ∧ I1Base underPfixz 7 0 ∧ Extendable underPfix :=
  ⟨i1Base_witnesses.1, i1Base_witnesses.2.1, i1Base_witnesses.2.2, extendable_underPfix⟩

theorem witness_MoveImmediate : Extendable plain ∧ Extendable underPfix ∧ ¬ Extendable underPfixz :=
  ⟨extendable_plain, extendable_underPfix, not_extendable_underPfixz⟩

theorem witness_NopLeavesAll : plain.pfx = none := rfl

theorem witness_ConditionalSelect : R1Base plain 6 3 ∧ R1Base underPfixz 7 0 ∧ plain.pfx = none :=
  ⟨r1Base_witnesses.1, r1Base_witnesses.2, rfl⟩

theorem witness_ConditionalSet : plain.pfx = none ∧ underPfix.pfx ≠ none ∧ underPfixz.pfx ≠ none := by
  decide

/-- The word at 0xFFFE through R3 (its base 0xFFFE, offset 0), and the byte at 0xFFFF. -/
theorem witness_BaseOffsetLoads :
    I1Base plain 3 0xFFFE ∧ WordFits plain (0xFFFE + imm plain ((0 : BitVec 5).setWidth 16) (0 : BitVec 5)) ∧
      plain.dataPopulated (0xFFFE + imm plain ((1 : BitVec 5).setWidth 16) (1 : BitVec 5)) = true :=
  ⟨.inl ⟨extendable_plain, .r3, rfl, rfl⟩, by unfold WordFits; decide, by decide⟩

theorem witness_BaseOffsetStores :
    I1Base underPfixz 7 0 ∧
      WordFits underPfixz (0 + imm underPfixz ((30 : BitVec 5).setWidth 16) (30 : BitVec 5)) ∧
      underPfixz.dataPopulated (0 + imm underPfixz ((31 : BitVec 5).setWidth 16) (31 : BitVec 5)) = true :=
  ⟨i1Base_witnesses.2.2, by unfold WordFits; decide, by decide⟩

theorem witness_AbsoluteLoadsStores :
    (0x02 : BitVec 5) = (0x8002 : Word).extractLsb' 0 5 ∧ WordFits plain 0xFFFE ∧ WordFits small 0x7FFE ∧
      small.dataPopulated 0x7FFF = true ∧ (0xFFFF : Word).toNat % 2 = 1 ∧
      small.dataPopulated 0x8000 = false ∧ (0x8000 : Word).toNat % 2 = 0 :=
  ⟨by decide, wordFits_witnesses.2.1, wordFits_witnesses.2.2, by decide⟩

theorem witness_StackRelativeLoadsStores :
    Extendable plain ∧ WordFits plain (plain.sp + imm plain ((254 : BitVec 8).setWidth 16) (254 : BitVec 8)) ∧
      plain.dataPopulated (plain.sp + imm plain ((255 : BitVec 8).setWidth 16) (255 : BitVec 8)) = true :=
  ⟨extendable_plain, by unfold WordFits; decide, by decide⟩

theorem witness_IndexedLoadsStores :
    R1Base plain 2 0x0010 ∧ WordFits plain (0x0010 + plain.regs.get .r3) ∧
      plain.dataPopulated (0x0010 + plain.regs.get .r6) = true :=
  ⟨.inl ⟨rfl, .r2, rfl, rfl⟩, by unfold WordFits; decide, by decide⟩

theorem witness_MixedWidthAccess :
    WordFits plain 0xFFFE ∧ WordFits { plain with params := otherParams } 0 ∧
    (∃ t, exec (.movwRa 0xFFFE (fieldOfReg .r1)) plain = .next t) ∧
    (∃ t, exec (.movbRa 0xFFFE (fieldOfReg .r1)) plain = .next t) ∧
    (∃ t, exec (.movbRa (0xFFFE + 1) (fieldOfReg .r1)) plain = .next t) ∧
    (∃ t, exec (.movwRa 0 (fieldOfReg .r1)) { plain with params := otherParams } = .next t) ∧
    plain.params.byteOrder = .little ∧ otherParams.byteOrder = .big :=
  ⟨wordFits_witnesses.2.1, by unfold WordFits; decide, ⟨_, rfl⟩, ⟨_, rfl⟩, ⟨_, rfl⟩, ⟨_, rfl⟩, rfl, rfl⟩

/-- SP = 2: the push goes to address 0; SP = 0: it wraps to 0xFFFE; odd; below and past the populated
block. -/
theorem witness_PushAndPop :
    plain.pfx = none ∧ WordFits plain (plain.sp - 2) ∧ WordFits plain plain.sp ∧
      WordFits { plain with sp := 0 } (0 - 2) ∧ (0xFFFF : Word).toNat % 2 = 1 ∧
      (0 : Word).toNat % 2 = 0 ∧ small.dataPopulated (0 - 2) = false ∧
      (0x8000 : Word).toNat % 2 = 0 ∧ small.dataPopulated 0x8000 = false ∧ underPfixz.pfx ≠ none := by
  unfold WordFits; decide

theorem witness_ProgramRead :
    plain.pfx = none ∧ plain.progPopulated (plain.regs.get .r3) = true ∧
      small.progPopulated (small.regs.get .r0) = true ∧ small.progPopulated (small.regs.get .r6) = false := by
  decide

theorem witness_RelativeTransfers :
    (Extendable plain ∧ WordFits plain (plain.sp - 2)) ∧
      (Extendable underPfix ∧ WordFits underPfix (underPfix.sp - 2)) :=
  ⟨⟨extendable_plain, by unfold WordFits; decide⟩, extendable_underPfix, by unfold WordFits; decide⟩

theorem witness_RegisterTransfers :
    plain.pfx = none ∧ WordFits plain (plain.sp - 2) ∧ WordFits plain plain.sp ∧
      (1 : Word).toNat % 2 = 1 ∧ (0 : Word).toNat % 2 = 0 ∧ small.dataPopulated (0 - 2) = false ∧
      (0x8000 : Word).toNat % 2 = 0 ∧ small.dataPopulated 0x8000 = false ∧ underPfix.pfx ≠ none := by
  unfold WordFits; decide

theorem witness_CallThenReturnResumes :
    (∃ t, exec (.callK 0x1FF) plain = .next t) ∧ (∃ t, exec (.callR 6) plain = .next t) :=
  ⟨⟨_, rfl⟩, ⟨_, rfl⟩⟩

theorem witness_InterruptFlag : plain.pfx = none := rfl

theorem witness_HaltIsTerminal :
    plain.pfx = none ∧ State.halted { plain with halted := true } = true ∧
      step { plain with halted := true } = .fault .halted ∧
      ∃ t, advance stackingModel (.reset .chosen) { plain with halted := true } = .next t :=
  ⟨rfl, rfl, rfl, _, rfl⟩

theorem witness_SpecStops :
    Instr.format .reservedI1x110 = .reserved ∧ plain.pfx = none ∧ underPfixz.pfx ≠ none := by decide

theorem witness_RegisterField7Refused :
    Instr.format (.movRr 7 0) ≠ .reserved ∧ Instr.format (.movRr 7 0) ≠ .notImplemented ∧
      Instr.runsUnder (.movRr 7 0) plain.pfx = true ∧ (7 : RegField) ∈ Instr.usedFields plain.zeroing (.movRr 7 0) ∧
      Instr.runsUnder (.addRrr 7 7 0) underPfixz.pfx = true ∧
      (7 : RegField) ∈ Instr.usedFields underPfixz.zeroing (.addRrr 7 7 0) := by decide

theorem witness_UndocumentedPrefixRefused :
    Instr.format .reti ≠ .reserved ∧ Instr.format .reti ≠ .notImplemented ∧
      Instr.runsUnder .reti underPfix.pfx = false ∧ Instr.runsUnder (.pfixK 0) underPfix.pfx = false := by
  decide

theorem witness_MisalignedWordRefused :
    wordAddress (.movwAr 0xFFFF 6) plain = some 0xFFFF ∧ (0xFFFF : Word).toNat % 2 = 1 ∧
      wordAddress (.pushR 0) { plain with sp := 3 } = some 1 ∧ (1 : Word).toNat % 2 = 1 := by decide

theorem witness_UnpopulatedAccessRefused :
    wordAddress (.movwAr 0x8000 6) small = some 0x8000 ∧ (0x8000 : Word).toNat % 2 = 0 ∧
      small.dataPopulated 0x8000 = false ∧
      byteAddress (.movbRa 0x8000 6) small = some 0x8000 := by decide

theorem witness_InstructionsStopOnlyByName : exec .reti plain = .refused .retiUnspecified := rfl

/-- `mov -6, R2` at pc, in a running machine with no request. -/
def ready : State := plain.withFetchWord 16 0x87D2

theorem witness_StepRunsDecoded :
    ready.halted = false ∧ ready.acceptsRequest = false ∧ ready.progPopulated ready.pc = true ∧
      decode ready.pfx (ready.progAt ready.pc) = .movKr 0xFA 2 := by decide

theorem witness_BoundaryGating :
    let s := { plain with requests := [true], status := { plain.status with i := true } }
    (s.halted = false ∧ s.requests.head? = some true ∧ s.status.i = true ∧ s.pfx = none) ∧
    plain.requests.head? ≠ some true ∧ plain.status.i = false ∧ underPfix.pfx ≠ none ∧
      State.progPopulated { small with pc := 1 } 1 = false := by decide

/-- Halted; a request taken, and one whose entry the instance refuses; with no request: nothing populated
at pc, a word that is not `reti`, `reti` under a prefix, and `reti` that returns and one that is refused;
a request passed over for want of I and for a pending prefix. -/
theorem witness_StepUnderAnyIntModel :
    State.halted { enabled with halted := true } = true ∧
    (enabled.halted = false ∧ stackingModel.request true enabled = true ∧ enabled.status.i = true ∧
      enabled.pfx = none ∧ (∃ t, stackingModel.enter enabled = .ok t) ∧
      stackingModel.enter { enabled with sp := 1 } = .error .misalignedWord) ∧
    (stackingModel.request false enabled = false ∧ plain.status.i = false ∧ underPfix.pfx ≠ none) ∧
    State.progPopulated { small with pc := 1 } 1 = false ∧
    (enabled.progPopulated enabled.pc = true ∧ decode enabled.pfx (enabled.progAt enabled.pc) ≠ .reti) ∧
    (atReti.progPopulated atReti.pc = true ∧ decode atReti.pfx (atReti.progAt atReti.pc) = .reti ∧
      decode (some ⟨true, 0⟩) (atReti.progAt atReti.pc) = .reti ∧
      (∃ t, stackingModel.resume atReti = .ok t) ∧
      stackingModel.resume { atReti with sp := 1 } = .error .misalignedWord) :=
  ⟨rfl, ⟨rfl, rfl, rfl, rfl, ⟨_, rfl⟩, rfl⟩, by decide, by decide, by decide, by decide, by decide,
    by decide, ⟨_, rfl⟩, rfl⟩

theorem witness_FetchWordRuns :
    plain.halted = false ∧ plain.pfx = none ∧ plain.Undisturbed ∧
      State.Undisturbed { plain with requests := [false, false] } ∧ plain.progPopulated plain.pc = true := by
  unfold State.Undisturbed; decide

theorem witness_ResetHoldsInv :
    plain.Inv ∧ Mem.wf (Launch.dmem { Launch.chosen with dmem := [(0, 1), (0xFFFF, 2)] }) = true :=
  ⟨⟨rfl, rfl⟩, rfl⟩

theorem witness_StepKeepsInv : ready.Inv ∧ ∃ t, Stepped ready t := ⟨⟨rfl, rfl⟩, ⟨_, rfl⟩⟩

theorem witness_CanonicalMemoriesEqual :
    Mem.wf [(0, (1 : Byte)), (65535, 2)] = true ∧ Mem.wf (Mem.write [(65535, 2)] 0 (1 : Byte)) = true ∧
      ∀ a, Mem.read? [(0, (1 : Byte)), (65535, 2)] a = Mem.read? (Mem.write [(65535, 2)] 0 (1 : Byte)) a :=
  ⟨rfl, rfl, fun _ => rfl⟩

theorem witness_RegisterFrame :
    (∃ t, exec (.movKr 0xFA 2) plain = .next t) ∧ destination (.movKr 0xFA 2) ≠ some (fieldOfReg .r6) :=
  ⟨⟨_, rfl⟩, by decide⟩

theorem witness_FlagFrame :
    (∃ t, exec (.movKr 0xFA 2) plain = .next t) ∧ updatesSR (.movKr 0xFA 2) = false ∧
      (∃ t, exec (.cmpRr 1 2) plain = .next t) ∧ updatesAR (.cmpRr 1 2) = false ∧
      Instr.cmpRr 1 2 ≠ .eint ∧ Instr.cmpRr 1 2 ≠ .dint :=
  ⟨⟨_, rfl⟩, rfl, ⟨_, rfl⟩, rfl, by decide, by decide⟩

theorem witness_MemoryFrame :
    ((∃ t, exec (.movKr 0xFA 2) plain = .next t) ∧ stores (.movKr 0xFA 2) = false) ∧
    ((∃ t, exec (.pushR 1) plain = .next t) ∧ stores (.pushR 1) = true ∧
      wordAddress (.pushR 1) plain = some 0) ∧
    ((∃ t, exec (.movbRn 6 3 1) plain = .next t) ∧ stores (.movbRn 6 3 1) = true ∧
      byteAddress (.movbRn 6 3 1) plain = some 1) :=
  ⟨⟨⟨_, rfl⟩, rfl⟩, ⟨⟨_, rfl⟩, rfl, rfl⟩, ⟨_, rfl⟩, rfl, by decide⟩

theorem witness_RestFrame :
    (∃ t, exec (.orRrr 1 2 3) plain = .next t) ∧ Instr.orRrr 1 2 3 ≠ .halt ∧
      (∀ d, Instr.orRrr 1 2 3 ≠ .pushR d ∧ Instr.orRrr 1 2 3 ≠ .popR d ∧ Instr.orRrr 1 2 3 ≠ .callR d) ∧
      (∀ a, Instr.orRrr 1 2 3 ≠ .callK a) ∧ Instr.orRrr 1 2 3 ≠ .ret :=
  ⟨⟨_, rfl⟩, by decide, fun _ => ⟨nofun, nofun, nofun⟩, fun _ => nofun, by decide⟩

theorem witness_StepKeepsProgram : ∃ t, Stepped ready t := ⟨_, rfl⟩

theorem witness_StackPointerSteps : ∃ t, Stepped (plain.withFetchWord 16 0x0501) t := ⟨_, rfl⟩

theorem witness_PrefixLivesOneWord :
    (underPfix.pfx ≠ none ∧ ∃ t, Stepped (underPfix.withFetchWord 16 0x87D2) t) ∧
    ∃ t, Stepped (plain.withFetchWord 16 0xFFFF) t ∧ t.pfx = some ⟨true, 0x7FF⟩ :=
  ⟨⟨by decide, _, rfl⟩, _, rfl, rfl⟩

theorem witness_PcAdvancesByOne :
    (∃ t, exec .halt { plain with pc := 0xFFFF } = .next t) ∧
      (∀ cc a, Instr.halt ≠ .brCk cc a ∧ Instr.halt ≠ .jmpK a ∧ Instr.halt ≠ .callK a) ∧
      (∀ d, Instr.halt ≠ .jmpR d ∧ Instr.halt ≠ .callR d) ∧ Instr.halt ≠ .ret :=
  ⟨⟨_, rfl⟩, fun _ _ => ⟨nofun, nofun, nofun⟩, fun _ => ⟨nofun, nofun⟩, by decide⟩

/-- Two different states that no program tells apart: S and V both flipped, and AZ. -/
theorem witness_FlagsIndistinguishable :
    let t := { plain with status := { plain.status with s := true, v := true, az := true } }
    Alike plain t ∧ plain ≠ t := ⟨⟨rfl, rfl⟩, by decide⟩

theorem witness_DisabledInterruptsAreInvisible :
    plain.status.i = false ∧ step (plain.withFetchWord 16 0x0380) = .refused .retiUnspecified ∧
      ∃ t, step ready = .next t := ⟨rfl, rfl, _, rfl⟩

end Sys2Proof.Tests
end

section
/-! PROOFS. The prefix instructions (spec/40_prefix.md R120, R121): their words, what they leave, and
their refusal after a prefix. -/

namespace Sys2Proof.Machine

/-- What the two prefix instructions share (40_prefix.md R120, R121): refuse after a prefix, else leave
`x` pending for the next word. `exec_pfixK` and `exec_pfixzK` tie it to the model. -/
def State.makePending (s : State) (x : Pfx) : Attempt State := do
  s.checkNoPrefixPending
  return { s with pfx := some x, pc := s.pc + 1 }

theorem exec_pfixK (p : BitVec 11) (s : State) :
    exec (.pfixK p) s = (s.makePending ⟨false, p⟩).outcome := rfl

theorem exec_pfixzK (p : BitVec 11) (s : State) :
    exec (.pfixzK p) s = (s.makePending ⟨true, p⟩).outcome := rfl

theorem makePending_eq_ok {s t : State} {x : Pfx} :
    s.makePending x = .ok t ↔ s.pfx = none ∧ t = { s with pfx := some x, pc := s.pc + 1 } := by
  simp only [State.makePending, bind_pure_eq_ok, checkNoPrefixPending_eq_ok, exists_const]

theorem makePending_eq_error {s : State} {x : Pfx} {r : Refusal} :
    s.makePending x = .error r ↔ s.pfx ≠ none ∧ r = .prefixAfterPrefix := by
  simp only [State.makePending, bind_eq_error, checkNoPrefixPending_eq_error, pure_ne_error, and_false,
    exists_false, or_false]

theorem makePending_outcome_of_none {s : State} (x : Pfx) (h : s.pfx = none) :
    (s.makePending x).outcome = .next { s with pfx := some x, pc := s.pc + 1 } :=
  outcome_eq_next.2 (makePending_eq_ok.2 ⟨h, rfl⟩)

theorem makePending_outcome_of_pending {s : State} (x : Pfx) (h : s.pfx ≠ none) :
    (s.makePending x).outcome = .refused .prefixAfterPrefix :=
  outcome_eq_refused.2 (makePending_eq_error.2 ⟨h, rfl⟩)

/-- A concatenation is the high part shifted over the low one: what the spec writes `0xF000 | p_imm` of
a format P word (30_encoding.md R81). -/
theorem append_eq_shiftLeft_or {m n : Nat} (hi : BitVec m) (lo : BitVec n) :
    hi ++ lo = (hi.setWidth (m + n) <<< n) ||| lo.setWidth (m + n) := by
  rw [BitVec.append_def, BitVec.shiftLeftZeroExtend_eq, BitVec.setWidth'_eq]

theorem encode_pfixK (p : BitVec 11) : encode (.pfixK p) = [0xF000 ||| p.setWidth 16] :=
  congrArg ([·]) (append_eq_shiftLeft_or 0b11110#5 p)

theorem encode_pfixzK (p : BitVec 11) : encode (.pfixzK p) = [0xF800 ||| p.setWidth 16] :=
  congrArg ([·]) (append_eq_shiftLeft_or 0b11111#5 p)

/-- A prefix with `p_imm = 0` clears bits 15:5 of the immediate (40_prefix.md R120, R122). -/
theorem imm16_zero (field : Word) : imm16 0 field = field &&& 0b11111 := by
  simp [imm16, Config.pfixShift]

/-- Settles O6: the words by the layout of format P, both meanings by what `makePending` can do. -/
theorem prefixWords : Obligations.PrefixWords := by
  intro p
  refine ⟨encode_pfixK p, encode_pfixzK p, fun s hnone => ?_, fun s hpending => ?_, imm16_zero⟩
  · rw [exec_pfixK, exec_pfixzK]
    exact ⟨makePending_outcome_of_none _ hnone, makePending_outcome_of_none _ hnone⟩
  · rw [exec_pfixK, exec_pfixzK]
    exact ⟨makePending_outcome_of_pending _ hpending, makePending_outcome_of_pending _ hpending⟩

end Sys2Proof.Machine
end

section
/-! PROOFS. The two-register moves, extensions and shifts (spec/41_arith_logic.md R147 to R149, R156 to
R158; spec/42_moves.md R181, R184): the word of a two-register R2 instruction, when its operands refuse,
and each result in the form its statement gives it. -/

namespace Sys2Proof.Machine

open Sys2Proof.Claim

/-! ### The word and the operands of format R2 -/

/-- The word of a two-register R2 instruction, as 30_encoding.md R99 writes it: ten opcode bits above Rs
at 5:3 and Rd at 2:0. -/
theorem wordR2_eq_or (op : BitVec 10) (rs rd : RegField) :
    op ++ rs ++ rd = (op.setWidth 16 <<< 6) ||| (rs.setWidth 16 <<< 3) ||| rd.setWidth 16 := by
  have hop : (op.setWidth 13 <<< 3).setWidth 16 <<< 3 = op.setWidth 16 <<< 6 := by bv_omega
  have hrs : (rs.setWidth 13).setWidth 16 = rs.setWidth 16 := BitVec.setWidth_setWidth (by decide)
  rw [append_eq_shiftLeft_or (op ++ rs) rd, append_eq_shiftLeft_or op rs, BitVec.setWidth_or,
    BitVec.shiftLeft_or_distrib, hop, hrs]

theorem exists_eq_fieldOfReg {f : RegField} : (∃ r, f = fieldOfReg r) ↔ f ≠ 7 := by
  constructor
  · rintro ⟨r, rfl⟩
    exact fieldOfReg_ne_seven r
  · exact (regField_cases f).resolve_left

theorem regValue_eq_error {s : State} {f : RegField} {r : Refusal} :
    s.regValue f = .error r ↔ f = 7 ∧ r = .registerField7 := by
  simp only [State.regValue, bind_eq_error, register_eq_error, pure_ne_error, and_false, exists_false,
    or_false]

/-- A pending prefix is refused before a field is looked at; then field 7, in Rs or in Rd
(60_exceptions.md R285). -/
theorem operandsR2_eq_error {s : State} {rs rd : RegField} {r : Refusal} :
    s.operandsR2 rs rd = .error r ↔
      (s.pfx ≠ none ∧ r = .prefixUndocumented) ∨
      (s.pfx = none ∧ (rs = 7 ∨ rd = 7) ∧ r = .registerField7) := by
  have hrs : (∃ v, s.regValue rs = .ok v) ↔ rs ≠ 7 := by
    rw [← exists_eq_fieldOfReg]
    simp only [regValue_eq_ok]
    exact ⟨fun ⟨_, r, h, _⟩ => ⟨r, h⟩, fun ⟨r, h⟩ => ⟨_, r, h, rfl⟩⟩
  simp only [State.operandsR2, bind_eq_error, checkUnprefixed_eq_error, checkUnprefixed_eq_ok,
    regValue_eq_error, register_eq_error, pure_ne_error, and_false, exists_false, or_false, exists_const,
    exists_and_right, hrs]
  tauto

/-! ### What a two-register move does -/

/-- What the eight instructions share: read the operands of format R2, write `g` of Rs to Rd. The lemmas
`exec_movRr` to `exec_bswapRr` tie it to the model. -/
def State.moveR2 (s : State) (g : Word → Word) (rs rd : RegField) : Attempt State := do
  let o ← s.operandsR2 rs rd
  return s.writeBack o.rd (g o.rsVal)

theorem moveR2_eq_ok {s t : State} {g : Word → Word} {rs rd : RegField} :
    s.moveR2 g rs rd = .ok t ↔ s.pfx = none ∧
      ∃ r d, rs = fieldOfReg r ∧ rd = fieldOfReg d ∧ t = wrote s d (g (s.regs.get r)) := by
  simp only [State.moveR2, bind_pure_eq_ok, operandsR2_eq_ok]
  constructor
  · rintro ⟨_, ⟨hnone, r, d, hr, hd, rfl⟩, rfl⟩
    exact ⟨hnone, r, d, hr, hd, rfl⟩
  · rintro ⟨hnone, r, d, hr, hd, rfl⟩
    exact ⟨_, ⟨hnone, r, d, hr, hd, rfl⟩, rfl⟩

theorem moveR2_eq_error {s : State} {g : Word → Word} {rs rd : RegField} {r : Refusal} :
    s.moveR2 g rs rd = .error r ↔
      (s.pfx ≠ none ∧ r = .prefixUndocumented) ∨
      (s.pfx = none ∧ (rs = 7 ∨ rd = 7) ∧ r = .registerField7) := by
  simp only [State.moveR2, bind_eq_error, operandsR2_eq_error, pure_ne_error, and_false, exists_false,
    or_false]

/-- An instruction that is `moveR2 f` under the ten opcode bits `op` has the whole rule. -/
theorem r2Move_of_moveR2 {mk : RegField → RegField → Instr} {f : Word → Word} (op : BitVec 10)
    (hword : ∀ rs rd, encode (mk rs rd) = [op ++ rs ++ rd])
    (hexec : ∀ rs rd s, exec (mk rs rd) s = (s.moveR2 f rs rd).outcome) :
    R2Move mk (op.setWidth 16 <<< 6) f := by
  refine ⟨fun rs rd => ?word, fun s r d hnone => ?result, fun s rs rd hpending => ?pending,
    fun s rs rd hnone hseven => ?seven⟩
  case word => rw [hword, wordR2_eq_or]
  case result =>
    rw [hexec, outcome_eq_next, moveR2_eq_ok]
    exact ⟨hnone, r, d, rfl, rfl, rfl⟩
  case pending =>
    rw [hexec, outcome_eq_refused, moveR2_eq_error]
    exact .inl ⟨hpending, rfl⟩
  case seven =>
    rw [hexec, outcome_eq_refused, moveR2_eq_error]
    exact .inr ⟨hnone, hseven, rfl⟩

/-! ### The eight meanings -/

section
variable (rs rd : RegField) (s : State)

theorem exec_movRr : exec (.movRr rs rd) s = (s.moveR2 (fun v => v) rs rd).outcome := rfl

theorem exec_zextRr : exec (.zextRr rs rd) s = (s.moveR2 zextByte rs rd).outcome := rfl

theorem exec_sextRr : exec (.sextRr rs rd) s = (s.moveR2 sextByte rs rd).outcome := rfl

theorem exec_sextwRr :
    exec (.sextwRr rs rd) s = (s.moveR2 (fun v => if v.msb then 0xFFFF else 0x0000) rs rd).outcome := rfl

theorem exec_asrRr : exec (.asrRr rs rd) s = (s.moveR2 (fun v => v.sshiftRight 1) rs rd).outcome := rfl

theorem exec_lsrRr : exec (.lsrRr rs rd) s = (s.moveR2 (fun v => v >>> 1) rs rd).outcome := rfl

theorem exec_lslRr : exec (.lslRr rs rd) s = (s.moveR2 (fun v => v <<< 1) rs rd).outcome := rfl

theorem exec_bswapRr : exec (.bswapRr rs rd) s = (s.moveR2 swapBytes rs rd).outcome := rfl

end

/-! ### The results as the statements give them -/

theorem and_lowByteMask_getElem (v : Word) {i : Nat} (hi : i < 16) :
    (v &&& 0x00FF)[i] = (decide (i < 8) && v[i]) := by
  have hmask : ∀ {i : Nat} (h : i < 16), (0x00FF : Word)[i] = decide (i < 8) := by decide
  rw [BitVec.getElem_and, hmask, Bool.and_comm]

theorem or_highByteMask_getElem (v : Word) {i : Nat} (hi : i < 16) :
    (v ||| 0xFF00)[i] = (decide (8 ≤ i) || v[i]) := by
  have hmask : ∀ {i : Nat} (h : i < 16), (0xFF00 : Word)[i] = decide (8 ≤ i) := by decide
  rw [BitVec.getElem_or, hmask, Bool.or_comm]

/-- The zero-extended low byte is the word with its high byte masked off. -/
theorem zextByte_eq_and (v : Word) : zextByte v = v &&& 0x00FF := by
  ext i hi
  rw [and_lowByteMask_getElem]
  simp [zextByte, BitVec.getLsbD_eq_getElem hi]

theorem sextByte_getElem (v : Word) {i : Nat} (hi : i < 16) :
    (sextByte v)[i] = if i < 8 then v[i] else v.getLsbD 7 := by
  rw [sextByte, BitVec.getElem_signExtend]
  simp [BitVec.msb_eq_getLsbD_last, BitVec.getLsbD_eq_getElem hi]

/-- Bit 7 fills the high byte: it is all ones, or masked off. -/
theorem sextByte_eq_ite (v : Word) :
    sextByte v = if v.getLsbD 7 then v ||| 0xFF00 else v &&& 0x00FF := by
  ext i hi
  rw [sextByte_getElem]
  cases v.getLsbD 7 with
  | true =>
    rw [if_pos rfl, or_highByteMask_getElem]
    simp only [← Nat.not_lt]
    by_cases hlow : i < 8 <;> simp [hlow]
  | false =>
    rw [if_neg Bool.false_ne_true, and_lowByteMask_getElem]
    by_cases hlow : i < 8 <;> simp [hlow]

/-- The sign bit is the sign of the number. -/
theorem ite_msb_eq_ite_toInt (v a b : Word) :
    (if v.msb then a else b) = if v.toInt < 0 then a else b := by
  simp only [BitVec.msb_eq_toInt, decide_eq_true_eq]

theorem sshiftRight_one_eq_ofInt (v : Word) : v.sshiftRight 1 = BitVec.ofInt 16 (v.toInt / 2) := by
  rw [BitVec.sshiftRight_eq, Int.shiftRight_eq_div_pow]
  rfl

theorem ushiftRight_one_eq_ofNat (v : Word) : v >>> 1 = BitVec.ofNat 16 (v.toNat / 2) := by
  have := v.isLt
  apply BitVec.eq_of_toNat_eq
  rw [BitVec.toNat_ushiftRight, Nat.shiftRight_eq_div_pow, BitVec.toNat_ofNat,
    Nat.mod_eq_of_lt (by omega)]

theorem shiftLeft_one_eq_add (v : Word) : v <<< 1 = v + v :=
  (BitVec.shiftLeft_eq_mul_twoPow v 1).trans BitVec.mul_two

/-- Exchanging the two bytes is turning the word by eight bits. -/
theorem swapBytes_eq_rotateLeft (v : Word) : swapBytes v = v.rotateLeft 8 := by
  ext i hi
  rw [swapBytes, BitVec.getElem_append, BitVec.getElem_rotateLeft]
  by_cases hlow : i < 8
  · simp [hlow, BitVec.getLsbD_eq_getElem (show 8 + i < 16 by omega)]
  · simp [hlow, BitVec.getLsbD_eq_getElem (show i - 8 < 16 by omega)]

/-- Settles O16: each of the eight is `moveR2` of its stated function under its opcode bits. -/
theorem movesExtensionsShifts : Obligations.MovesExtensionsShifts := by
  refine ⟨?mov, ?zext, ?sext, ?sextw, ?asr, ?lsr, ?lsl, ?bswap⟩
  case mov => exact r2Move_of_moveR2 0b0000000000 (fun _ _ => rfl) exec_movRr
  case zext =>
    rw [← funext zextByte_eq_and]
    exact r2Move_of_moveR2 0b0000010000 (fun _ _ => rfl) exec_zextRr
  case sext =>
    rw [← funext sextByte_eq_ite]
    exact r2Move_of_moveR2 0b0000011000 (fun _ _ => rfl) exec_sextRr
  case sextw =>
    rw [← funext (ite_msb_eq_ite_toInt · 0xFFFF 0x0000)]
    exact r2Move_of_moveR2 0b0000101000 (fun _ _ => rfl) exec_sextwRr
  case asr =>
    rw [← funext sshiftRight_one_eq_ofInt]
    exact r2Move_of_moveR2 0b0000010001 (fun _ _ => rfl) exec_asrRr
  case lsr =>
    rw [← funext ushiftRight_one_eq_ofNat]
    exact r2Move_of_moveR2 0b0000000001 (fun _ _ => rfl) exec_lsrRr
  case lsl =>
    rw [← funext shiftLeft_one_eq_add]
    exact r2Move_of_moveR2 0b0000001001 (fun _ _ => rfl) exec_lslRr
  case bswap =>
    rw [← funext swapBytes_eq_rotateLeft]
    exact r2Move_of_moveR2 0b0000100000 (fun _ _ => rfl) exec_bswapRr

end Sys2Proof.Machine
end

section
/-! PROOFS. The conditional set (spec/42_moves.md R186): what decoding a word of format R2 looks at, the
word of `set%cc`, and all its meaning can do. -/

namespace Sys2Proof.Machine

open Sys2Proof.Claim

/-! ### Decoding a word of format R2

The word is written by its fields (30_encoding.md R86): four zeros, opA, opB, Rs, Rd. -/

section
variable (opA opB rs rd : BitVec 3)

theorem extract_top_wordR2 : (0b0000#4 ++ opA ++ opB ++ rs ++ rd).extractLsb' 12 4 = 0b0000#4 := by
  rw [BitVec.extractLsb'_append_eq_of_le (by decide), BitVec.extractLsb'_append_eq_of_le (by decide),
    BitVec.extractLsb'_append_eq_of_le (by decide), BitVec.extractLsb'_append_eq_left]

theorem extract_opB_wordR2 : (0b0000#4 ++ opA ++ opB ++ rs ++ rd).extractLsb' 6 3 = opB := by
  rw [BitVec.extractLsb'_append_eq_of_le (by decide), BitVec.extractLsb'_append_eq_of_le (by decide),
    BitVec.extractLsb'_append_eq_right]

theorem ccOf_wordR2 : ccOf (0b0000#4 ++ opA ++ opB ++ rs ++ rd) = Cond.ofCode opA := by
  rw [ccOf, BitVec.extractLsb'_append_eq_of_le (by decide),
    BitVec.extractLsb'_append_eq_of_le (by decide), BitVec.extractLsb'_append_eq_of_le (by decide),
    BitVec.extractLsb'_append_eq_right]

theorem rdOf_wordR2 : rdOf (0b0000#4 ++ opA ++ opB ++ rs ++ rd) = rd :=
  BitVec.extractLsb'_append_eq_right

end

/-- A pending prefix changes the name of a format I1 word only, whose bits 15:14 are 01. -/
theorem decode_eq_decodePlain {w : Word} (pfx : Option Pfx) (h : w.extractLsb' 14 2 ≠ 0b01#2) :
    decode pfx w = decodePlain w := by
  unfold decode
  split
  · exact if_neg h
  · rfl

/-- A field inside a field is a field of the word. -/
theorem extractLsb'_extractLsb' {n : Nat} (w : BitVec n) {outer width start len : Nat}
    (h : start + len ≤ width) :
    (w.extractLsb' outer width).extractLsb' start len = w.extractLsb' (outer + start) len := by
  ext i hi
  have hin : start + i < width := by omega
  simp [hin, Nat.add_assoc]

/-- Whatever prefix is pending, four zeros at the top are format R2 (30_encoding.md R87). -/
theorem decode_eq_decodeR2 {w : Word} (pfx : Option Pfx) (h : w.extractLsb' 12 4 = 0b0000#4) :
    decode pfx w = decodeR2 w := by
  have htop : w.extractLsb' 14 2 = (0b0000#4).extractLsb' 2 2 := by
    rw [← h, extractLsb'_extractLsb' w (by decide)]
  rw [decode_eq_decodePlain pfx (by rw [htop]; decide), decodePlain, h]
  rfl

/-! ### The word of `set%cc` -/

@[simp] theorem ofCode_code (cc : Cond) : Cond.ofCode cc.code = cc := by
  cases cc <;> rfl

/-- Bits 5:3 are no part of the name, and neither is a prefix: `set%cc` has no prefixed form. -/
theorem decode_setWord (pfx : Option Pfx) (cc : Cond) (x rd : BitVec 3) :
    decode pfx (0b0000#4 ++ cc.code ++ 0b111#3 ++ x ++ rd) = .setCr cc rd := by
  rw [decode_eq_decodeR2 pfx (extract_top_wordR2 ..), decodeR2, extract_opB_wordR2, ccOf_wordR2,
    rdOf_wordR2, ofCode_code]
  rfl

/-- The ten opcode bits of `set%cc` in place: 0x01C0 under the condition code at 11:9. -/
theorem setOpcode_shiftLeft (cc : Cond) :
    (0b0000#4 ++ cc.code ++ 0b111#3).setWidth 16 <<< 6 =
      (0x01C0 : Word) ||| (cc.code.setWidth 16 <<< 9) := by
  cases cc <;> rfl

theorem encode_setCr (cc : Cond) (rd : RegField) :
    encode (.setCr cc rd) =
      [(0x01C0 : Word) ||| (cc.code.setWidth 16 <<< 9) ||| rd.setWidth 16] := by
  have hrs : (0b000#3).setWidth 16 <<< 3 = 0#16 := rfl
  rw [encode, wordR2_eq_or, setOpcode_shiftLeft, hrs, BitVec.or_zero]

/-! ### What `set%cc` does -/

theorem operandsRd_eq_error {s : State} {rd : RegField} {r : Refusal} :
    s.operandsRd rd = .error r ↔
      (s.pfx ≠ none ∧ r = .prefixUndocumented) ∨ (s.pfx = none ∧ rd = 7 ∧ r = .registerField7) := by
  simp only [State.operandsRd, bind_eq_error, checkUnprefixed_eq_error, checkUnprefixed_eq_ok,
    register_eq_error, exists_const]

/-- The model's test of the flags is the formula of 30_encoding.md R94. -/
theorem holds_eq_formula (st : Status) (cc : Cond) : st.holds cc = formula st cc := by
  cases cc <;> rfl

theorem writeBack_eq_wrote (s : State) (d : Reg) (v : Word) : s.writeBack d v = wrote s d v := rfl

theorem exec_setCr (cc : Cond) (rd : RegField) (s : State) :
    exec (.setCr cc rd) s = execSetCr cc rd s := rfl

theorem exec_setCr_eq_next {cc : Cond} {rd : RegField} {s t : State} :
    exec (.setCr cc rd) s = .next t ↔ s.pfx = none ∧ ∃ d, rd = fieldOfReg d ∧
      t = wrote s d (if formula s.status cc then 0x0001 else 0x0000) := by
  simp only [exec_setCr, execSetCr, outcome_eq_next, bind_pure_eq_ok, operandsRd_eq_ok,
    holds_eq_formula, writeBack_eq_wrote, and_assoc, exists_and_left]

theorem exec_setCr_eq_refused {cc : Cond} {rd : RegField} {s : State} {r : Refusal} :
    exec (.setCr cc rd) s = .refused r ↔
      (s.pfx ≠ none ∧ r = .prefixUndocumented) ∨ (s.pfx = none ∧ rd = 7 ∧ r = .registerField7) := by
  simp only [exec_setCr, execSetCr, outcome_eq_refused, bind_eq_error, operandsRd_eq_error,
    pure_ne_error, and_false, exists_false, or_false]

/-- Settles O23: the word and its don't-care bits by the fields of format R2, the result and the
refusals by all that `set%cc` can do. -/
theorem conditionalSet : Obligations.ConditionalSet := by
  refine ⟨encode_setCr, decode_setWord, fun s cc d hnone => ?result, fun s cc hnone => ?seven,
    fun s cc rd hpending => ?pending⟩
  case result => exact exec_setCr_eq_next.2 ⟨hnone, d, rfl, rfl⟩
  case seven => exact exec_setCr_eq_refused.2 (.inr ⟨hnone, rfl, rfl⟩)
  case pending => exact exec_setCr_eq_refused.2 (.inl ⟨hpending, rfl⟩)

end Sys2Proof.Machine
end

section
/-! PROOFS. Word and byte accesses in the terms of the statements (spec/20_memory.md R50, R54, R56), and
what the loads, stores and pushes at an address do with them, whatever the mode that made the address. -/

namespace Sys2Proof.Machine

open Sys2Proof.Claim

/-! ### Alignment and fit -/

theorem getLsbD_zero_eq_false {a : Word} : a.getLsbD 0 = false ↔ a.toNat % 2 = 0 := by
  simp [BitVec.getLsbD, Nat.testBit_zero]

theorem getLsbD_zero_eq_true {a : Word} : a.getLsbD 0 = true ↔ a.toNat % 2 = 1 := by
  simp [BitVec.getLsbD, Nat.testBit_zero]

theorem checkWord_eq_ok_iff_wordFits {s : State} {a : Word} :
    s.checkWord a = .ok () ↔ WordFits s a := by
  rw [checkWord_eq_ok, getLsbD_zero_eq_false, WordFits]

theorem checkWord_of_odd {s : State} {a : Word} (h : a.toNat % 2 = 1) :
    s.checkWord a = .error .misalignedWord :=
  checkWord_eq_error.2 (.inl ⟨getLsbD_zero_eq_true.2 h, rfl⟩)

theorem checkWord_of_unpopulated {s : State} {a : Word} (heven : a.toNat % 2 = 0)
    (h : s.dataPopulated a = false) : s.checkWord a = .error .unpopulatedAddress :=
  checkWord_eq_error.2 (.inr ⟨getLsbD_zero_eq_false.2 heven, .inl h, rfl⟩)

/-! ### Reading -/

theorem joinBytes_byteAt (s : State) (a : Word) :
    joinBytes s.params.byteOrder (s.byteAt a) (s.byteAt (a + 1)) = wordAt s a := rfl

theorem readWord_eq_ok_iff_wordFits {s : State} {a v : Word} :
    s.readWord a = .ok v ↔ WordFits s a ∧ v = wordAt s a := by
  rw [readWord_eq_ok, checkWord_eq_ok_iff_wordFits, joinBytes_byteAt]

theorem readWord_eq_error {s : State} {a : Word} {r : Refusal} :
    s.readWord a = .error r ↔ s.checkWord a = .error r := by
  simp only [State.readWord, bind_eq_error, pure_ne_error, and_false, exists_false, or_false]

theorem readByte_eq_error {s : State} {a : Word} {r : Refusal} :
    s.readByte a = .error r ↔ s.dataPopulated a = false ∧ r = .unpopulatedAddress := by
  simp only [State.readByte, bind_eq_error, checkByte_eq_error, pure_ne_error, and_false, exists_false,
    or_false]

/-! ### Writing -/

/-- The state with the word `v` at `a`, in the byte order of the machine. `writeWord_eq_ok_iff_wordFits`
ties it to the model's word write. -/
def State.setWord (s : State) (a v : Word) : State :=
  (s.setByte a (firstByte s.params.byteOrder v)).setByte (a + 1) (secondByte s.params.byteOrder v)

theorem writeWord_eq_ok_iff_wordFits {s t : State} {a v : Word} :
    s.writeWord a v = .ok t ↔ WordFits s a ∧ t = s.setWord a v := by
  rw [writeWord_eq_ok, checkWord_eq_ok_iff_wordFits, State.setWord]

theorem writeWord_eq_error {s : State} {a v : Word} {r : Refusal} :
    s.writeWord a v = .error r ↔ s.checkWord a = .error r := by
  simp only [State.writeWord, bind_eq_error, pure_ne_error, and_false, exists_false, or_false]

theorem writeByte_eq_error {s : State} {a : Word} {b : Byte} {r : Refusal} :
    s.writeByte a b = .error r ↔ s.dataPopulated a = false ∧ r = .unpopulatedAddress := by
  simp only [State.writeByte, bind_eq_error, checkByte_eq_error, pure_ne_error, and_false, exists_false,
    or_false]

theorem ne_add_one (a : Word) : a ≠ a + 1 := by bv_omega

theorem byteAt_setWord_first (s : State) (a v : Word) :
    (s.setWord a v).byteAt a = firstByte s.params.byteOrder v := by
  rw [State.setWord, State.byteAt_setByte_ne (ne_add_one a), State.byteAt_setByte_same]

theorem byteAt_setWord_second (s : State) (a v : Word) :
    (s.setWord a v).byteAt (a + 1) = secondByte s.params.byteOrder v :=
  State.byteAt_setByte_same

theorem byteAt_setWord_ne {s : State} {a v b : Word} (h : b ≠ a) (h' : b ≠ a + 1) :
    (s.setWord a v).byteAt b = s.byteAt b := by
  rw [State.setWord, State.byteAt_setByte_ne h', State.byteAt_setByte_ne h]

/-- The word written is the word read, in either byte order. -/
theorem wordAt_setWord (s : State) (a v : Word) : wordAt (s.setWord a v) a = v := by
  rw [← joinBytes_byteAt, byteAt_setWord_first, byteAt_setWord_second]
  exact joinBytes_split s.params.byteOrder v

theorem hasWord_setWord (s : State) (a v : Word) : HasWord s (s.setWord a v) a v :=
  ⟨wordAt_setWord s a v, fun _ => byteAt_setWord_ne⟩

theorem hasByte_setByte (s : State) (a : Word) (b : Byte) : HasByte s (s.setByte a b) a b :=
  ⟨State.byteAt_setByte_same, fun _ => State.byteAt_setByte_ne⟩

/-! ### Loads and stores at an address -/

section
variable {s t : State} {a v : Word} {d : Reg} {r : Refusal}

theorem loadWord_outcome_of_wordFits (d : Reg) (h : WordFits s a) :
    (s.loadWord a d).outcome = .next (wrote s d (wordAt s a)) :=
  outcome_eq_next.2 (loadWord_eq_ok.2 ⟨_, readWord_eq_ok_iff_wordFits.2 ⟨h, rfl⟩, rfl⟩)

theorem loadByteZ_outcome_of_populated (d : Reg) (h : s.dataPopulated a = true) :
    (s.loadByteZ a d).outcome = .next (wrote s d ((s.byteAt a).setWidth 16)) :=
  outcome_eq_next.2 (loadByteZ_eq_ok.2 ⟨h, rfl⟩)

theorem loadByteS_outcome_of_populated (d : Reg) (h : s.dataPopulated a = true) :
    (s.loadByteS a d).outcome = .next (wrote s d ((s.byteAt a).signExtend 16)) :=
  outcome_eq_next.2 (loadByteS_eq_ok.2 ⟨h, rfl⟩)

theorem storedWord_of_wordFits (d : Reg) (h : WordFits s a) :
    StoredWord (s.storeWord a d).outcome s a (s.regs.get d) := by
  have hstore : (s.storeWord a d).outcome = .next (s.setWord a (s.regs.get d)).retire :=
    outcome_eq_next.2 (storeWord_eq_ok.2 ⟨_, writeWord_eq_ok_iff_wordFits.2 ⟨h, rfl⟩, rfl⟩)
  exact ⟨_, hstore, hasWord_setWord s a _⟩

theorem storedByte_of_populated (d : Reg) (h : s.dataPopulated a = true) :
    StoredByte (s.storeByte a d).outcome s a (s.regs.get d) := by
  have hstore : (s.storeByte a d).outcome =
      .next (s.setByte a ((s.regs.get d).extractLsb' 0 8)).retire :=
    outcome_eq_next.2 (storeByte_eq_ok.2 ⟨h, rfl⟩)
  exact ⟨_, hstore, hasByte_setByte s a _⟩

theorem loadWord_eq_error : s.loadWord a d = .error r ↔ s.checkWord a = .error r := by
  simp only [State.loadWord, bind_eq_error, readWord_eq_error, pure_ne_error, and_false, exists_false,
    or_false]

theorem storeWord_eq_error : s.storeWord a d = .error r ↔ s.checkWord a = .error r := by
  simp only [State.storeWord, bind_eq_error, writeWord_eq_error, pure_ne_error, and_false, exists_false,
    or_false]

theorem loadByteZ_eq_error :
    s.loadByteZ a d = .error r ↔ s.dataPopulated a = false ∧ r = .unpopulatedAddress := by
  simp only [State.loadByteZ, bind_eq_error, readByte_eq_error, pure_ne_error, and_false, exists_false,
    or_false]

theorem loadByteS_eq_error :
    s.loadByteS a d = .error r ↔ s.dataPopulated a = false ∧ r = .unpopulatedAddress := by
  simp only [State.loadByteS, bind_eq_error, readByte_eq_error, pure_ne_error, and_false, exists_false,
    or_false]

theorem storeByte_eq_error :
    s.storeByte a d = .error r ↔ s.dataPopulated a = false ∧ r = .unpopulatedAddress := by
  simp only [State.storeByte, bind_eq_error, writeByte_eq_error, pure_ne_error, and_false, exists_false,
    or_false]

/-! ### The stack -/

theorem pushWord_eq_ok_iff_wordFits :
    s.pushWord v = .ok t ↔
      WordFits s (s.sp - 2) ∧ t = { s.setWord (s.sp - 2) v with sp := s.sp - 2 } := by
  simp only [pushWord_eq_ok, stackStep, writeWord_eq_ok_iff_wordFits, and_assoc, exists_and_left,
    exists_eq_left]

theorem pushWord_eq_error : s.pushWord v = .error r ↔ s.checkWord (s.sp - 2) = .error r := by
  simp only [State.pushWord, stackStep, bind_eq_error, writeWord_eq_error, pure_ne_error, and_false,
    exists_false, or_false]

/-- An instruction that pushes `v` and goes to `target` has the outcome `Pushed`. -/
theorem pushed_of_pushWord {target : Word} (h : s.pushWord v = .ok t) :
    Pushed (.next (t.retireTo target)) s v target := by
  obtain ⟨-, rfl⟩ := pushWord_eq_ok_iff_wordFits.1 h
  exact ⟨_, rfl, hasWord_setWord s (s.sp - 2) v⟩

theorem topWord_eq_ok_iff_wordFits : s.topWord = .ok v ↔ WordFits s s.sp ∧ v = wordAt s s.sp := by
  rw [topWord_eq_ok, readWord_eq_ok_iff_wordFits]

theorem topWord_eq_error : s.topWord = .error r ↔ s.checkWord s.sp = .error r :=
  readWord_eq_error

end

end Sys2Proof.Machine
end

section
/-! PROOFS. The absolute loads and stores (spec/43_memory.md R206 to R210): their two words, what decoding
the core word under a pending `pfixz_k` looks at, and their meanings once Rd is known. -/

namespace Sys2Proof.Machine

open Sys2Proof.Claim

/-! ### The two words -/

/-- A word with zeros in the bits of Rs and Rd at 2:0 (30_encoding.md R93, R99). -/
theorem wordRd_eq_or (op : BitVec 10) (rd : RegField) :
    op ++ 0b000#3 ++ rd = (op.setWidth 16 <<< 6) ||| rd.setWidth 16 := by
  have hrs : (0b000#3).setWidth 16 <<< 3 = 0#16 := rfl
  rw [wordR2_eq_or, hrs, BitVec.or_zero]

/-- Masking the low five bits keeps what a five-bit field keeps. -/
theorem and_fiveBitMask (v : Word) : v &&& 0b11111 = (v.setWidth 5).setWidth 16 := by
  have hmask : ∀ {i : Nat} (h : i < 16), (0b11111 : Word)[i] = decide (i < 5) := by decide
  ext i hi
  rw [BitVec.getElem_and, hmask]
  simp [BitVec.getLsbD_eq_getElem hi, Bool.and_comm]

theorem extractLsb'_high_setWidth (a : Word) : (a.extractLsb' 5 11).setWidth 16 = a >>> 5 := by
  have := a.isLt
  apply BitVec.eq_of_toNat_eq
  simp only [BitVec.toNat_setWidth, BitVec.extractLsb'_toNat, BitVec.toNat_ushiftRight,
    Nat.shiftRight_eq_div_pow]
  omega

theorem extractLsb'_low_setWidth (a : Word) : (a.extractLsb' 0 5).setWidth 16 = a &&& 0b11111 := by
  rw [and_fiveBitMask, BitVec.setWidth_eq_extractLsb' (by decide : 5 ≤ 16)]

/-- The ten bits of opcode and K in place, as two fields. -/
theorem append_setWidth_shiftLeft (op k : BitVec 5) :
    (op ++ k).setWidth 16 <<< 6 = (op.setWidth 16 <<< 11) ||| (k.setWidth 16 <<< 6) := by
  have hop : (op.setWidth 10 <<< 5).setWidth 16 <<< 6 = op.setWidth 16 <<< 11 := by bv_omega
  have hk : (k.setWidth 10).setWidth 16 = k.setWidth 16 := BitVec.setWidth_setWidth (by decide)
  rw [append_eq_shiftLeft_or op k, BitVec.setWidth_or, BitVec.shiftLeft_or_distrib, hop, hk]

/-- The two words as 43_memory.md R206 to R210 write them, the core word by its five opcode bits. -/
theorem encodeAbsolute_eq_or (op : BitVec 5) (a : Word) (rd : RegField) :
    encodeAbsolute op a rd = [0xF800 ||| (a >>> 5),
      (op.setWidth 16 <<< 11) ||| (((a &&& 0b11111) <<< 6) ||| rd.setWidth 16)] := by
  have hprefix : 0b11111#5 ++ a.extractLsb' 5 11 = (0xF800 : Word) ||| (a >>> 5) := by
    rw [append_eq_shiftLeft_or, extractLsb'_high_setWidth]
    rfl
  have hcore : op ++ a.extractLsb' 0 5 ++ 0b000#3 ++ rd =
      (op.setWidth 16 <<< 11) ||| (((a &&& 0b11111) <<< 6) ||| rd.setWidth 16) := by
    rw [wordRd_eq_or, append_setWidth_shiftLeft, extractLsb'_low_setWidth, BitVec.or_assoc]
  rw [encodeAbsolute, hprefix, hcore]
  rfl

/-! ### Decoding a word of format I1 under `pfixz_k`

The word is written by its fields (30_encoding.md R82): five opcode bits, K, Rs, Rd. -/

section
variable (op k : BitVec 5) (rs rd : BitVec 3)

theorem extract_top_wordI1 : (op ++ k ++ rs ++ rd).extractLsb' 14 2 = op.extractLsb' 3 2 := by
  rw [BitVec.extractLsb'_append_eq_of_le (by decide), BitVec.extractLsb'_append_eq_of_le (by decide),
    BitVec.extractLsb'_append_eq_of_le (by decide)]

theorem extract_op_wordI1 : (op ++ k ++ rs ++ rd).extractLsb' 11 3 = op.extractLsb' 0 3 := by
  rw [BitVec.extractLsb'_append_eq_of_le (by decide), BitVec.extractLsb'_append_eq_of_le (by decide),
    BitVec.extractLsb'_append_eq_of_le (by decide)]

theorem k5Of_wordI1 : k5Of (op ++ k ++ rs ++ rd) = k := by
  rw [k5Of, BitVec.extractLsb'_append_eq_of_le (by decide),
    BitVec.extractLsb'_append_eq_of_le (by decide), BitVec.extractLsb'_append_eq_right]

theorem rdOf_wordI1 : rdOf (op ++ k ++ rs ++ rd) = rd :=
  BitVec.extractLsb'_append_eq_right

end

theorem decode_zeroing_eq_decodeAbsolute (p : BitVec 11) {w : Word} (h : w.extractLsb' 14 2 = 0b01#2) :
    decode (some ⟨true, p⟩) w = decodeAbsolute p w :=
  if_pos h

/-- The immediate is the prefix over the core field (40_prefix.md R122, decision D1). -/
theorem imm16_eq_append (p : BitVec 11) (k : BitVec 5) : imm16 p (k.setWidth 16) = p ++ k := by
  have hfield : (k.setWidth 16).setWidth 5 = k :=
    (BitVec.setWidth_setWidth_of_le k (by decide)).trans (BitVec.setWidth_eq k)
  have hmask : k.setWidth 16 &&& ((1#16 <<< Config.pfixShift) - 1) = k.setWidth 16 :=
    (and_fiveBitMask _).trans (congrArg _ hfield)
  rw [imm16, hmask, append_eq_shiftLeft_or]
  rfl

/-- The prefix with A[15:5] and the core field with A[4:0] make the address A (40_prefix.md R126). -/
theorem imm16_extract (a : Word) :
    imm16 (a.extractLsb' 5 11) ((a.extractLsb' 0 5).setWidth 16) = a := by
  rw [imm16_eq_append, BitVec.extractLsb'_append_extractLsb'_eq_extractLsb' (by omega)]
  simp

/-- A core word whose opcode is that of an absolute form decodes to it, whatever its Rs field holds. -/
theorem decode_absoluteWord {mk : Word → RegField → Instr} (op : BitVec 5) (a : Word)
    (rs rd : RegField) (htop : op.extractLsb' 3 2 = 0b01#2)
    (hmk : ∀ (p : BitVec 11) (w : Word), w.extractLsb' 11 3 = op.extractLsb' 0 3 →
      decodeAbsolute p w = mk (imm16 p ((k5Of w).setWidth 16)) (rdOf w)) :
    decode (some ⟨true, a.extractLsb' 5 11⟩) (op ++ a.extractLsb' 0 5 ++ rs ++ rd) = mk a rd := by
  rw [decode_zeroing_eq_decodeAbsolute _ ((extract_top_wordI1 ..).trans htop),
    hmk _ _ (extract_op_wordI1 ..), k5Of_wordI1, rdOf_wordI1, imm16_extract]

section
variable (p : BitVec 11) (w : Word)

theorem decodeAbsolute_eq_movwAr (h : w.extractLsb' 11 3 = 0b001#3) :
    decodeAbsolute p w = .movwAr (imm16 p ((k5Of w).setWidth 16)) (rdOf w) := by
  rw [decodeAbsolute, h]
  rfl

theorem decodeAbsolute_eq_movzbAr (h : w.extractLsb' 11 3 = 0b010#3) :
    decodeAbsolute p w = .movzbAr (imm16 p ((k5Of w).setWidth 16)) (rdOf w) := by
  rw [decodeAbsolute, h]
  rfl

theorem decodeAbsolute_eq_movsbAr (h : w.extractLsb' 11 3 = 0b011#3) :
    decodeAbsolute p w = .movsbAr (imm16 p ((k5Of w).setWidth 16)) (rdOf w) := by
  rw [decodeAbsolute, h]
  rfl

theorem decodeAbsolute_eq_movwRa (h : w.extractLsb' 11 3 = 0b100#3) :
    decodeAbsolute p w = .movwRa (imm16 p ((k5Of w).setWidth 16)) (rdOf w) := by
  rw [decodeAbsolute, h]
  rfl

theorem decodeAbsolute_eq_movbRa (h : w.extractLsb' 11 3 = 0b101#3) :
    decodeAbsolute p w = .movbRa (imm16 p ((k5Of w).setWidth 16)) (rdOf w) := by
  rw [decodeAbsolute, h]
  rfl

end

/-! ### What the five do

Each reads Rd and then loads or stores at A. -/

section
variable (a : Word) (rd : RegField) (s : State)

theorem exec_movwAr : exec (.movwAr a rd) s = (register rd >>= s.loadWord a).outcome := rfl

theorem exec_movzbAr : exec (.movzbAr a rd) s = (register rd >>= s.loadByteZ a).outcome := rfl

theorem exec_movsbAr : exec (.movsbAr a rd) s = (register rd >>= s.loadByteS a).outcome := rfl

theorem exec_movwRa : exec (.movwRa a rd) s = (register rd >>= s.storeWord a).outcome := rfl

theorem exec_movbRa : exec (.movbRa a rd) s = (register rd >>= s.storeByte a).outcome := rfl

end

theorem register_fieldOfReg_bind {α : Type} (d : Reg) (f : Reg → Attempt α) :
    (register (fieldOfReg d) >>= f) = f d := by
  rw [register_fieldOfReg, bind_ok]

theorem register_seven_bind {α : Type} (f : Reg → Attempt α) :
    (register 7 >>= f) = .error .registerField7 := by
  rw [register_eq_error.2 ⟨rfl, rfl⟩, bind_error]

/-- Settles O26: the words and their decoding by the fields of format I1, the results and refusals by
what the accesses at an address do. -/
theorem absoluteLoadsStores : Obligations.AbsoluteLoadsStores := by
  refine ⟨fun a rd => ?words, ?decoding, fun s a d => ?meaning, fun s a => ?seven⟩
  case words =>
    exact ⟨encodeAbsolute_eq_or 0b01001 a rd, encodeAbsolute_eq_or 0b01010 a rd,
      encodeAbsolute_eq_or 0b01011 a rd, encodeAbsolute_eq_or 0b01100 a rd,
      encodeAbsolute_eq_or 0b01101 a rd⟩
  case decoding =>
    rintro a rs rd _ rfl
    exact ⟨decode_absoluteWord 0b01001 a rs rd rfl decodeAbsolute_eq_movwAr,
      decode_absoluteWord 0b01010 a rs rd rfl decodeAbsolute_eq_movzbAr,
      decode_absoluteWord 0b01011 a rs rd rfl decodeAbsolute_eq_movsbAr,
      decode_absoluteWord 0b01100 a rs rd rfl decodeAbsolute_eq_movwRa,
      decode_absoluteWord 0b01101 a rs rd rfl decodeAbsolute_eq_movbRa⟩
  case meaning =>
    simp only [exec_movwAr, exec_movzbAr, exec_movsbAr, exec_movwRa, exec_movbRa,
      register_fieldOfReg_bind]
    refine ⟨fun hfits => ?word, fun hpop => ?byte, fun hodd => ?odd, fun hunpop => ?unpopulated⟩
    case word => exact ⟨loadWord_outcome_of_wordFits d hfits, storedWord_of_wordFits d hfits⟩
    case byte =>
      exact ⟨loadByteZ_outcome_of_populated d hpop, loadByteS_outcome_of_populated d hpop,
        storedByte_of_populated d hpop⟩
    case odd =>
      rw [outcome_eq_refused, outcome_eq_refused, loadWord_eq_error, storeWord_eq_error]
      exact ⟨checkWord_of_odd hodd, checkWord_of_odd hodd⟩
    case unpopulated =>
      simp only [outcome_eq_refused, loadWord_eq_error, storeWord_eq_error, loadByteZ_eq_error,
        loadByteS_eq_error, storeByte_eq_error, and_true]
      exact ⟨fun heven => ⟨checkWord_of_unpopulated heven hunpop,
        checkWord_of_unpopulated heven hunpop⟩, hunpop, hunpop, hunpop⟩
  case seven =>
    simp only [exec_movwAr, exec_movzbAr, exec_movsbAr, exec_movwRa, exec_movbRa, register_seven_bind,
      outcome_eq_refused, and_self]

end Sys2Proof.Machine
end

section
/-! PROOFS. `push` and `pop` (spec/43_memory.md R221, R222): decoding a word of format R2 with opB = 100,
and all that the two can do. -/

namespace Sys2Proof.Machine

open Sys2Proof.Claim

/-! ### The words of `push` and `pop` -/

theorem encode_pushR (rd : RegField) : encode (.pushR rd) = [0x0500 ||| rd.setWidth 16] :=
  congrArg ([·]) (wordRd_eq_or 0b0000010100 rd)

theorem encode_popR (rd : RegField) : encode (.popR rd) = [0x0700 ||| rd.setWidth 16] :=
  congrArg ([·]) (wordRd_eq_or 0b0000011100 rd)

theorem extract_opA_wordR2 (opA opB rs rd : BitVec 3) :
    (0b0000#4 ++ opA ++ opB ++ rs ++ rd).extractLsb' 9 3 = opA := by
  rw [BitVec.extractLsb'_append_eq_of_le (by decide), BitVec.extractLsb'_append_eq_of_le (by decide),
    BitVec.extractLsb'_append_eq_of_le (by decide), BitVec.extractLsb'_append_eq_right]

/-- Whatever prefix is pending: the one-register words of format R2 have no prefixed form. -/
theorem decode_wordR2_opB4 (pfx : Option Pfx) (opA x rd : BitVec 3) :
    decode pfx (0b0000#4 ++ opA ++ 0b100#3 ++ x ++ rd) =
      decodeR2opB4 (0b0000#4 ++ opA ++ 0b100#3 ++ x ++ rd) := by
  rw [decode_eq_decodeR2 pfx (extract_top_wordR2 ..), decodeR2, extract_opB_wordR2]
  rfl

theorem decode_pushWord (pfx : Option Pfx) (x rd : BitVec 3) :
    decode pfx (0b0000010100#10 ++ x ++ rd) = .pushR rd := by
  rw [show 0b0000010100#10 = 0b0000#4 ++ 0b010#3 ++ 0b100#3 from rfl, decode_wordR2_opB4, decodeR2opB4,
    extract_opA_wordR2, rdOf_wordR2]
  rfl

theorem decode_popWord (pfx : Option Pfx) (x rd : BitVec 3) :
    decode pfx (0b0000011100#10 ++ x ++ rd) = .popR rd := by
  rw [show 0b0000011100#10 = 0b0000#4 ++ 0b011#3 ++ 0b100#3 from rfl, decode_wordR2_opB4, decodeR2opB4,
    extract_opA_wordR2, rdOf_wordR2]
  rfl

/-! ### What `push` and `pop` do -/

theorem sub_two_toNat_mod_two (a : Word) : (a - 2).toNat % 2 = a.toNat % 2 := by
  bv_omega

section
variable {s t : State} {rd : RegField} {r : Refusal}

theorem exec_pushR (rd : RegField) (s : State) : exec (.pushR rd) s = execPushR rd s := rfl

theorem exec_popR (rd : RegField) (s : State) : exec (.popR rd) s = execPopR rd s := rfl

theorem exec_pushR_eq_next :
    exec (.pushR rd) s = .next t ↔ s.pfx = none ∧ ∃ d, rd = fieldOfReg d ∧
      ∃ u, s.pushWord (s.regs.get d) = .ok u ∧ t = u.retire := by
  simp only [exec_pushR, execPushR, outcome_eq_next, bind_eq_ok, pure_eq_ok, operandsRd_eq_ok,
    and_assoc, exists_and_left, eq_comm (a := t)]

theorem exec_popR_eq_next :
    exec (.popR rd) s = .next t ↔ s.pfx = none ∧ ∃ d, rd = fieldOfReg d ∧
      WordFits s s.sp ∧ t = { wrote s d (wordAt s s.sp) with sp := s.sp + 2 } := by
  have hdone : ∀ d v, s.dropWord.writeBack d v = { wrote s d v with sp := s.sp + 2 } := fun _ _ => rfl
  simp only [exec_popR, execPopR, outcome_eq_next, bind_eq_ok, pure_eq_ok, operandsRd_eq_ok,
    topWord_eq_ok_iff_wordFits, hdone, and_assoc, exists_and_left, exists_eq_left, eq_comm (a := t)]

/-- The stack word is looked at only once the prefix and Rd have passed (60_exceptions.md R285). -/
theorem exec_pushR_eq_refused :
    exec (.pushR rd) s = .refused r ↔
      (s.pfx ≠ none ∧ r = .prefixUndocumented) ∨ (s.pfx = none ∧ rd = 7 ∧ r = .registerField7) ∨
      (s.pfx = none ∧ (∃ d, rd = fieldOfReg d) ∧ s.checkWord (s.sp - 2) = .error r) := by
  simp only [exec_pushR, execPushR, outcome_eq_refused, bind_eq_error, operandsRd_eq_error,
    operandsRd_eq_ok, pushWord_eq_error, pure_ne_error, and_false, exists_false, or_false, or_assoc,
    and_assoc, exists_and_left, exists_and_right]

theorem exec_popR_eq_refused :
    exec (.popR rd) s = .refused r ↔
      (s.pfx ≠ none ∧ r = .prefixUndocumented) ∨ (s.pfx = none ∧ rd = 7 ∧ r = .registerField7) ∨
      (s.pfx = none ∧ (∃ d, rd = fieldOfReg d) ∧ s.checkWord s.sp = .error r) := by
  simp only [exec_popR, execPopR, outcome_eq_refused, bind_eq_error, operandsRd_eq_error,
    operandsRd_eq_ok, topWord_eq_error, pure_ne_error, and_false, exists_false, or_false, or_assoc,
    and_assoc, exists_and_left, exists_and_right]

theorem pushed_of_exec_pushR (hnone : s.pfx = none) (d : Reg) (hfits : WordFits s (s.sp - 2)) :
    Pushed (exec (.pushR (fieldOfReg d)) s) s (s.regs.get d) (s.pc + 1) := by
  have hpush := (pushWord_eq_ok_iff_wordFits (v := s.regs.get d)).2 ⟨hfits, rfl⟩
  rw [exec_pushR_eq_next.2 ⟨hnone, d, rfl, _, hpush, rfl⟩]
  exact pushed_of_pushWord hpush

theorem exec_popR_of_wordFits (hnone : s.pfx = none) (d : Reg) (hfits : WordFits s s.sp) :
    exec (.popR (fieldOfReg d)) s = .next { wrote s d (wordAt s s.sp) with sp := s.sp + 2 } :=
  exec_popR_eq_next.2 ⟨hnone, d, rfl, hfits, rfl⟩

theorem exec_pushR_of_checkWord_error (hnone : s.pfx = none) (d : Reg)
    (h : s.checkWord (s.sp - 2) = .error r) : exec (.pushR (fieldOfReg d)) s = .refused r :=
  exec_pushR_eq_refused.2 (.inr (.inr ⟨hnone, ⟨d, rfl⟩, h⟩))

theorem exec_popR_of_checkWord_error (hnone : s.pfx = none) (d : Reg)
    (h : s.checkWord s.sp = .error r) : exec (.popR (fieldOfReg d)) s = .refused r :=
  exec_popR_eq_refused.2 (.inr (.inr ⟨hnone, ⟨d, rfl⟩, h⟩))

/-- `push Rx` then `pop Ry`: what was pushed lies on top, so it comes back, and SP with it. -/
theorem exec_pushR_then_popR (hnone : s.pfx = none) (hfits : WordFits s (s.sp - 2)) (x y : Reg) :
    ∃ t u, exec (.pushR (fieldOfReg x)) s = .next t ∧ exec (.popR (fieldOfReg y)) t = .next u ∧
      u.regs = s.regs.set y (s.regs.get x) ∧ u.sp = s.sp ∧ u.status = s.status := by
  obtain ⟨m, hpush, hword, -⟩ := pushed_of_exec_pushR hnone x hfits
  refine ⟨_, _, hpush, exec_popR_of_wordFits rfl y hfits, ?regs, BitVec.sub_add_cancel .., rfl⟩
  exact congrArg (s.regs.set y) hword

end

/-- Settles O30: the words and their don't-care bits by the fields of format R2, the results, the copy
through the stack and the refusals by all that `push` and `pop` can do. -/
theorem pushAndPop : Obligations.PushAndPop := by
  refine ⟨fun rd => ⟨encode_pushR rd, encode_popR rd⟩,
    fun pfx x rd => ⟨decode_pushWord pfx x rd, decode_popWord pfx x rd⟩,
    fun s d hnone => ⟨pushed_of_exec_pushR hnone d, exec_popR_of_wordFits hnone d, fun hodd => ?odd,
      fun heven => ?unpopulated⟩,
    fun s x y hnone hfits => exec_pushR_then_popR hnone hfits x y, fun s hnone => ?seven,
    fun s rd hpending => ?pending⟩
  case odd =>
    have hodd' : (s.sp - 2).toNat % 2 = 1 := (sub_two_toNat_mod_two s.sp).trans hodd
    exact ⟨exec_pushR_of_checkWord_error hnone d (checkWord_of_odd hodd'),
      exec_popR_of_checkWord_error hnone d (checkWord_of_odd hodd)⟩
  case unpopulated =>
    have heven' : (s.sp - 2).toNat % 2 = 0 := (sub_two_toNat_mod_two s.sp).trans heven
    exact ⟨fun h => exec_pushR_of_checkWord_error hnone d (checkWord_of_unpopulated heven' h),
      fun h => exec_popR_of_checkWord_error hnone d (checkWord_of_unpopulated heven h)⟩
  case seven =>
    exact ⟨exec_pushR_eq_refused.2 (.inr (.inl ⟨hnone, rfl, rfl⟩)),
      exec_popR_eq_refused.2 (.inr (.inl ⟨hnone, rfl, rfl⟩))⟩
  case pending =>
    exact ⟨exec_pushR_eq_refused.2 (.inl ⟨hpending, rfl⟩),
      exec_popR_eq_refused.2 (.inl ⟨hpending, rfl⟩)⟩

end Sys2Proof.Machine
end

section
/-! PROOFS. The transfers through a register and the stack, `jmp Rd`, `call Rd` and `ret`
(spec/44_branch.md R245 to R247): their words, and all that the three can do. -/

namespace Sys2Proof.Machine

open Sys2Proof.Claim

/-! ### The words of `jmp Rd`, `call Rd` and `ret` -/

theorem encode_jmpR (rd : RegField) : encode (.jmpR rd) = [0x0100 ||| rd.setWidth 16] :=
  congrArg ([·]) (wordRd_eq_or 0b0000000100 rd)

theorem encode_callR (rd : RegField) : encode (.callR rd) = [0x0300 ||| rd.setWidth 16] :=
  congrArg ([·]) (wordRd_eq_or 0b0000001100 rd)

theorem decode_jmpWord (pfx : Option Pfx) (x rd : BitVec 3) :
    decode pfx (0b0000000100#10 ++ x ++ rd) = .jmpR rd := by
  rw [show 0b0000000100#10 = 0b0000#4 ++ 0b000#3 ++ 0b100#3 from rfl, decode_wordR2_opB4, decodeR2opB4,
    extract_opA_wordR2, rdOf_wordR2]
  rfl

theorem decode_callWord (pfx : Option Pfx) (x rd : BitVec 3) :
    decode pfx (0b0000001100#10 ++ x ++ rd) = .callR rd := by
  rw [show 0b0000001100#10 = 0b0000#4 ++ 0b001#3 ++ 0b100#3 from rfl, decode_wordR2_opB4, decodeR2opB4,
    extract_opA_wordR2, rdOf_wordR2]
  rfl

/-- Whatever prefix is pending: the words of format R2 without fields have no prefixed form. -/
theorem decode_wordR2_opB6 (pfx : Option Pfx) (opA x y : BitVec 3) :
    decode pfx (0b0000#4 ++ opA ++ 0b110#3 ++ x ++ y) =
      decodeR2opB6 (0b0000#4 ++ opA ++ 0b110#3 ++ x ++ y) := by
  rw [decode_eq_decodeR2 pfx (extract_top_wordR2 ..), decodeR2, extract_opB_wordR2]
  rfl

theorem decode_retWord (pfx : Option Pfx) (x y : BitVec 3) :
    decode pfx (0b0000000110#10 ++ x ++ y) = .ret := by
  rw [show 0b0000000110#10 = 0b0000#4 ++ 0b000#3 ++ 0b110#3 from rfl, decode_wordR2_opB6, decodeR2opB6,
    extract_opA_wordR2]
  rfl

/-! ### What the three do -/

section
variable {s t : State} {rd : RegField} {target : Word} {r : Refusal}

/-- With no prefix pending there is none to consume. -/
theorem retireTo_of_unprefixed (hnone : s.pfx = none) (target : Word) :
    s.retireTo target = { s with pc := target } := by
  rw [State.retireTo, ← hnone]

theorem callTo_eq_error : s.callTo target = .error r ↔ s.checkWord (s.sp - 2) = .error r := by
  simp only [State.callTo, bind_eq_error, pushWord_eq_error, pure_ne_error, and_false, exists_false,
    or_false]

/-- A call pushes the address of the word after it and goes to the target (44_branch.md R243). -/
theorem pushed_of_callTo (hfits : WordFits s (s.sp - 2)) (target : Word) :
    Pushed (s.callTo target).outcome s (s.pc + 1) target := by
  have hpush := (pushWord_eq_ok_iff_wordFits (v := s.pc + 1)).2 ⟨hfits, rfl⟩
  rw [outcome_eq_next.2 (callTo_eq_ok.2 ⟨_, hpush, rfl⟩)]
  exact pushed_of_pushWord hpush

theorem exec_jmpR (rd : RegField) (s : State) : exec (.jmpR rd) s = execJmpR rd s := rfl

theorem exec_callR (rd : RegField) (s : State) : exec (.callR rd) s = execCallR rd s := rfl

theorem exec_ret (s : State) : exec .ret s = execRet s := rfl

theorem exec_jmpR_eq_next :
    exec (.jmpR rd) s = .next t ↔
      s.pfx = none ∧ ∃ d, rd = fieldOfReg d ∧ t = s.retireTo (s.regs.get d) := by
  simp only [exec_jmpR, execJmpR, outcome_eq_next, bind_pure_eq_ok, operandsRd_eq_ok, and_assoc,
    exists_and_left]

theorem exec_jmpR_eq_refused :
    exec (.jmpR rd) s = .refused r ↔
      (s.pfx ≠ none ∧ r = .prefixUndocumented) ∨ (s.pfx = none ∧ rd = 7 ∧ r = .registerField7) := by
  simp only [exec_jmpR, execJmpR, outcome_eq_refused, bind_eq_error, operandsRd_eq_error,
    pure_ne_error, and_false, exists_false, or_false]

/-- Once the prefix and Rd have passed, `call Rd` is the call to the address in Rd. -/
theorem exec_callR_eq_callTo (hnone : s.pfx = none) (d : Reg) :
    exec (.callR (fieldOfReg d)) s = (s.callTo (s.regs.get d)).outcome := by
  rw [exec_callR, execCallR, operandsRd_eq_ok.2 ⟨hnone, rfl⟩, bind_ok]

theorem exec_callR_eq_refused :
    exec (.callR rd) s = .refused r ↔
      (s.pfx ≠ none ∧ r = .prefixUndocumented) ∨ (s.pfx = none ∧ rd = 7 ∧ r = .registerField7) ∨
      (s.pfx = none ∧ (∃ d, rd = fieldOfReg d) ∧ s.checkWord (s.sp - 2) = .error r) := by
  simp only [exec_callR, execCallR, outcome_eq_refused, bind_eq_error, operandsRd_eq_error,
    operandsRd_eq_ok, callTo_eq_error, or_assoc, and_assoc, exists_and_left, exists_and_right]

theorem exec_ret_eq_next :
    exec .ret s = .next t ↔
      s.pfx = none ∧ WordFits s s.sp ∧ t = s.dropWord.retireTo (wordAt s s.sp) := by
  simp only [exec_ret, execRet, outcome_eq_next, bind_eq_ok, pure_eq_ok, checkUnprefixed_eq_ok,
    topWord_eq_ok_iff_wordFits, exists_const, and_assoc, exists_and_left, exists_eq_left,
    eq_comm (a := t)]

theorem exec_ret_eq_refused :
    exec .ret s = .refused r ↔
      (s.pfx ≠ none ∧ r = .prefixUndocumented) ∨ (s.pfx = none ∧ s.checkWord s.sp = .error r) := by
  simp only [exec_ret, execRet, outcome_eq_refused, bind_eq_error, checkUnprefixed_eq_error,
    checkUnprefixed_eq_ok, topWord_eq_error, pure_ne_error, and_false, exists_false, or_false,
    exists_const]

theorem exec_jmpR_of_unprefixed (hnone : s.pfx = none) (d : Reg) :
    exec (.jmpR (fieldOfReg d)) s = .next { s with pc := s.regs.get d } := by
  rw [← retireTo_of_unprefixed hnone]
  exact exec_jmpR_eq_next.2 ⟨hnone, d, rfl, rfl⟩

theorem pushed_of_exec_callR (hnone : s.pfx = none) (d : Reg) (hfits : WordFits s (s.sp - 2)) :
    Pushed (exec (.callR (fieldOfReg d)) s) s (s.pc + 1) (s.regs.get d) := by
  rw [exec_callR_eq_callTo hnone]
  exact pushed_of_callTo hfits _

theorem exec_ret_of_wordFits (hnone : s.pfx = none) (hfits : WordFits s s.sp) :
    exec .ret s = .next { s with pc := wordAt s s.sp, sp := s.sp + 2 } := by
  have hdone : s.dropWord.retireTo (wordAt s s.sp) = { s with pc := wordAt s s.sp, sp := s.sp + 2 } :=
    retireTo_of_unprefixed (s := s.dropWord) hnone _
  rw [← hdone]
  exact exec_ret_eq_next.2 ⟨hnone, hfits, rfl⟩

theorem exec_callR_of_checkWord_error (hnone : s.pfx = none) (d : Reg)
    (h : s.checkWord (s.sp - 2) = .error r) : exec (.callR (fieldOfReg d)) s = .refused r :=
  exec_callR_eq_refused.2 (.inr (.inr ⟨hnone, ⟨d, rfl⟩, h⟩))

theorem exec_ret_of_checkWord_error (hnone : s.pfx = none) (h : s.checkWord s.sp = .error r) :
    exec .ret s = .refused r :=
  exec_ret_eq_refused.2 (.inr ⟨hnone, h⟩)

/-- `push Rd` then `ret` is an indirect jump: `ret` takes the word on top, whoever put it there
(44_branch.md R247). -/
theorem exec_pushR_then_ret (hnone : s.pfx = none) (hfits : WordFits s (s.sp - 2)) (d : Reg) :
    ∃ t u, exec (.pushR (fieldOfReg d)) s = .next t ∧ exec .ret t = .next u ∧
      u.pc = s.regs.get d ∧ u.sp = s.sp := by
  obtain ⟨m, hpush, hword, -⟩ := pushed_of_exec_pushR hnone d hfits
  exact ⟨_, _, hpush, exec_ret_of_wordFits rfl hfits, hword, BitVec.sub_add_cancel ..⟩

end

/-- Settles O33: the words and their don't-care bits by the fields of format R2, the results, the
indirect jump through the stack and the refusals by all that the three can do. -/
theorem registerTransfers : Obligations.RegisterTransfers := by
  refine ⟨fun rd => ⟨encode_jmpR rd, encode_callR rd⟩, rfl,
    fun pfx x rd => ⟨decode_jmpWord pfx x rd, decode_callWord pfx x rd, decode_retWord pfx x rd⟩,
    fun s d hnone => ⟨exec_jmpR_of_unprefixed hnone d, pushed_of_exec_callR hnone d,
      exec_ret_of_wordFits hnone, fun hfits => exec_pushR_then_ret hnone hfits d, fun hodd => ?odd,
      fun heven => ?unpopulated⟩,
    fun s hnone => ?seven, fun s rd hpending => ?pending⟩
  case odd =>
    have hodd' : (s.sp - 2).toNat % 2 = 1 := (sub_two_toNat_mod_two s.sp).trans hodd
    exact ⟨exec_callR_of_checkWord_error hnone d (checkWord_of_odd hodd'),
      exec_ret_of_checkWord_error hnone (checkWord_of_odd hodd)⟩
  case unpopulated =>
    have heven' : (s.sp - 2).toNat % 2 = 0 := (sub_two_toNat_mod_two s.sp).trans heven
    exact ⟨fun h => exec_callR_of_checkWord_error hnone d (checkWord_of_unpopulated heven' h),
      fun h => exec_ret_of_checkWord_error hnone (checkWord_of_unpopulated heven h)⟩
  case seven =>
    exact ⟨exec_jmpR_eq_refused.2 (.inr ⟨hnone, rfl, rfl⟩),
      exec_callR_eq_refused.2 (.inr (.inl ⟨hnone, rfl, rfl⟩))⟩
  case pending =>
    exact ⟨exec_jmpR_eq_refused.2 (.inl ⟨hpending, rfl⟩),
      exec_callR_eq_refused.2 (.inl ⟨hpending, rfl⟩), exec_ret_eq_refused.2 (.inl ⟨hpending, rfl⟩)⟩

end Sys2Proof.Machine
end

section
/-! PROOFS. The three parts of an instruction, in the order of 60_exceptions.md R285: its operands, the
check of the access it makes, what it does. `exec_eq_plan` says that `exec` is these three; the rules of
the whole machine are then about ten operand forms and eighteen effects. -/

namespace Sys2Proof.Machine

open Sys2Proof.Claim

/-! ### Effects and operand forms -/

/-- What an instruction does once its operands are read: the values and addresses it computed, and the
registers it reads or writes. -/
inductive Effect where
  | write (d : Reg) (v : Word)
  | writeArith (d : Reg) (o : AddOut)
  | writeLogic (d : Reg) (v : Word)
  | compare (o : AddOut)
  | loadWord (a : Word) (d : Reg)
  | loadByteZ (a : Word) (d : Reg)
  | loadByteS (a : Word) (d : Reg)
  | storeWord (a : Word) (d : Reg)
  | storeByte (a : Word) (d : Reg)
  | push (d : Reg)
  | pop (d : Reg)
  | readProg (a : Word) (d : Reg)
  | goto (target : Word)
  | call (target : Word)
  | ret
  | setI (b : Bool)
  | halt
  | leavePfx (x : Pfx)

/-- The operands of an instruction by its format, and the effect they come to. Format R2 has three forms,
by the registers it names; `stop` is a word refused by its own name. -/
inductive Form where
  | p (x : Pfx)
  | i1 (k : BitVec 5) (rs rd : RegField) (f : Word → Reg → Effect)
  | i2 (rd : RegField) (f : Reg → Effect)
  | j (e : Effect)
  | r1 (rn rs rd : RegField) (f : Word → Word → Reg → Effect)
  | r2 (rs rd : RegField) (f : Word → Reg → Effect)
  | oneReg (rd : RegField) (f : Reg → Effect)
  | noReg (e : Attempt Effect)
  | absolute (rd : RegField) (f : Reg → Effect)
  | stop (r : Refusal)

/-- The operand form of each instruction, with the values it takes from the state `s`. -/
def State.form (s : State) : Instr → Form
  | .pfixK p => .p ⟨false, p⟩
  | .pfixzK p => .p ⟨true, p⟩
  | .leaMr k rs rd => .i1 k rs rd fun a d => .write d a
  | .movwMr k rs rd => .i1 k rs rd .loadWord
  | .movzbMr k rs rd => .i1 k rs rd .loadByteZ
  | .movsbMr k rs rd => .i1 k rs rd .loadByteS
  | .movwRm k rs rd => .i1 k rs rd .storeWord
  | .movbRm k rs rd => .i1 k rs rd .storeByte
  | .movKr k rd => .i2 rd fun d => .write d (s.imm8s k)
  | .cmpRk k rd => .i2 rd fun d => .compare (subC (s.regs.get d) (s.imm8s k))
  | .addKr k rd => .i2 rd fun d => .writeArith d (addC (s.regs.get d) (s.imm8z k) false)
  | .subKr k rd => .i2 rd fun d => .writeArith d (subC (s.regs.get d) (s.imm8z k))
  | .andKr k rd => .i2 rd fun d => .writeLogic d (s.regs.get d &&& s.imm8z k)
  | .orKr k rd => .i2 rd fun d => .writeLogic d (s.regs.get d ||| s.imm8z k)
  | .leaSr k rd => .i2 rd fun d => .write d (s.spAddress k)
  | .movwSr k rd => .i2 rd (.loadWord (s.spAddress k))
  | .movsbSr k rd => .i2 rd (.loadByteS (s.spAddress k))
  | .movzbSr k rd => .i2 rd (.loadByteZ (s.spAddress k))
  | .movwRs k rd => .i2 rd (.storeWord (s.spAddress k))
  | .movbRs k rd => .i2 rd (.storeByte (s.spAddress k))
  | .brCk cc a => .j (.goto (if s.status.holds cc then s.branchTarget a else s.pc + 1))
  | .jmpK a => .j (.goto (s.branchTarget a))
  | .callK a => .j (.call (s.branchTarget a))
  | .addRrr rn rs rd => .r1 rn rs rd fun v w d => .writeArith d (addC v w false)
  | .adcRrr rn rs rd => .r1 rn rs rd fun v w d => .writeArith d (addC v w s.status.ac)
  | .subRrr rn rs rd => .r1 rn rs rd fun v w d => .writeArith d (subC v w)
  | .subcRrr rn rs rd => .r1 rn rs rd fun v w d => .writeArith d (subBorrowC v w s.status.ac)
  | .orRrr rn rs rd => .r1 rn rs rd fun v w d => .writeLogic d (v ||| w)
  | .andRrr rn rs rd => .r1 rn rs rd fun v w d => .writeLogic d (v &&& w)
  | .xorRrr rn rs rd => .r1 rn rs rd fun v w d => .writeLogic d (v ^^^ w)
  | .movwNr rn rs rd => .r1 rn rs rd fun v w => .loadWord (v + w)
  | .movzbNr rn rs rd => .r1 rn rs rd fun v w => .loadByteZ (v + w)
  | .movsbNr rn rs rd => .r1 rn rs rd fun v w => .loadByteS (v + w)
  | .movwRn rn rs rd => .r1 rn rs rd fun v w => .storeWord (v + w)
  | .movbRn rn rs rd => .r1 rn rs rd fun v w => .storeByte (v + w)
  | .selCrrr cc rn rs rd => .r1 rn rs rd fun v w d => .write d (if s.status.holds cc then v else w)
  | .setCr cc rd => .oneReg rd fun d => .write d (if s.status.holds cc then 1 else 0)
  | .movRr rs rd => .r2 rs rd fun v d => .write d v
  | .cmpRr rs rd => .r2 rs rd fun v d => .compare (subC (s.regs.get d) v)
  | .zextRr rs rd => .r2 rs rd fun v d => .write d (zextByte v)
  | .sextRr rs rd => .r2 rs rd fun v d => .write d (sextByte v)
  | .bswapRr rs rd => .r2 rs rd fun v d => .write d (swapBytes v)
  | .sextwRr rs rd => .r2 rs rd fun v d => .write d (if v.msb then 0xFFFF else 0x0000)
  | .movwPr rs rd => .r2 rs rd .readProg
  | .lsrRr rs rd => .r2 rs rd fun v d => .write d (v >>> 1)
  | .lslRr rs rd => .r2 rs rd fun v d => .write d (v <<< 1)
  | .asrRr rs rd => .r2 rs rd fun v d => .write d (v.sshiftRight 1)
  | .negRr rs rd => .r2 rs rd fun v d => .writeArith d (subC 0 v)
  | .notRr rs rd => .r2 rs rd fun v d => .writeLogic d (~~~v)
  | .jmpR rd => .oneReg rd fun d => .goto (s.regs.get d)
  | .callR rd => .oneReg rd fun d => .call (s.regs.get d)
  | .pushR rd => .oneReg rd .push
  | .popR rd => .oneReg rd .pop
  | .ret => .noReg (.ok .ret)
  | .reti => .noReg (.error .retiUnspecified)
  | .dint => .noReg (.ok (.setI false))
  | .eint => .noReg (.ok (.setI true))
  | .halt => .noReg (.ok .halt)
  | .movwAr a rd => .absolute rd (.loadWord a)
  | .movzbAr a rd => .absolute rd (.loadByteZ a)
  | .movsbAr a rd => .absolute rd (.loadByteS a)
  | .movwRa a rd => .absolute rd (.storeWord a)
  | .movbRa a rd => .absolute rd (.storeByte a)
  | .movTr _ | .movRt _ => .stop .notImplemented
  | _ => .stop .reservedEncoding

/-- The effect a form comes to, or the refusal of its operands, by the operand rules of the model. -/
def State.readForm (s : State) : Form → Attempt Effect
  | .p x => s.checkNoPrefixPending.map fun _ => .leavePfx x
  | .i1 k rs rd f => (s.operandsI1 k rs rd).map fun o => f o.ea o.rd
  | .i2 rd f => (s.operandsI2 rd).map f
  | .j e => s.checkExtendable.map fun _ => e
  | .r1 rn rs rd f => (s.operandsR1 rn rs rd).map fun o => f o.rsVal o.rnVal o.rd
  | .r2 rs rd f => (s.operandsR2 rs rd).map fun o => f o.rsVal o.rd
  | .oneReg rd f => (s.operandsRd rd).map f
  | .noReg e => s.checkUnprefixed >>= fun _ => e
  | .absolute rd f => (register rd).map f
  | .stop r => .error r

/-- What an instruction is about to do in the state `s`, or the refusal of its operands. -/
def State.plan (s : State) (i : Instr) : Attempt Effect := s.readForm (s.form i)

/-! ### Performing an effect -/

/-- The check of the access that an effect makes. -/
def State.checkAccess (s : State) : Effect → Attempt Unit
  | .loadWord a _ | .storeWord a _ => s.checkWord a
  | .push _ | .call _ => s.checkWord (s.sp - 2)
  | .pop _ | .ret => s.checkWord s.sp
  | .loadByteZ a _ | .loadByteS a _ | .storeByte a _ => s.checkByte a
  | .readProg a _ => if s.progPopulated a then .ok () else .error .unpopulatedAddress
  | _ => .ok ()

/-- The state with the word `v` pushed. -/
def State.pushed (s : State) (v : Word) : State := { s.setWord (s.sp - 2) v with sp := s.sp - 2 }

/-- The state after an effect. -/
def State.perform (s : State) : Effect → State
  | .write d v => s.writeBack d v
  | .writeArith d o => s.writeBackArith d o
  | .writeLogic d v => s.writeBackLogic d v
  | .compare o => s.compareDone o
  | .loadWord a d => s.writeBack d (wordAt s a)
  | .loadByteZ a d => s.writeBack d ((s.byteAt a).setWidth 16)
  | .loadByteS a d => s.writeBack d ((s.byteAt a).signExtend 16)
  | .storeWord a d => (s.setWord a (s.regs.get d)).retire
  | .storeByte a d => (s.setByte a ((s.regs.get d).extractLsb' 0 8)).retire
  | .push d => (s.pushed (s.regs.get d)).retire
  | .pop d => s.dropWord.writeBack d (wordAt s s.sp)
  | .readProg a d => s.writeBack d (s.progAt a)
  | .goto target => s.retireTo target
  | .call target => (s.pushed (s.pc + 1)).retireTo target
  | .ret => s.dropWord.retireTo (wordAt s s.sp)
  | .setI b => (s.setStatus { s.status with i := b }).retire
  | .halt => { s.retire with halted := true }
  | .leavePfx x => { s with pc := s.pc + 1, pfx := some x }

/-- The effect, its access checked first. -/
def State.checkThenPerform (s : State) (e : Effect) : Attempt State :=
  (s.checkAccess e).map fun _ => s.perform e

/-! ### An instruction is its plan, carried out -/

section
variable {α β γ : Type}

theorem map_eq_ok {f : α → β} {x : Attempt α} {b : β} : x.map f = .ok b ↔ ∃ a, x = .ok a ∧ f a = b := by
  cases x <;> simp [Except.map]

theorem map_eq_error {f : α → β} {x : Attempt α} {r : Refusal} : x.map f = .error r ↔ x = .error r := by
  cases x <;> simp [Except.map]

/-- A computation whose last line returns a value of what it found is a map. -/
theorem bind_pure_eq_map (x : Attempt α) (f : α → β) :
    (x >>= fun a => (pure (f a) : Attempt β)) = x.map f := by
  cases x <;> rfl

theorem map_bind (f : α → β) (x : Attempt α) (g : β → Attempt γ) :
    (x.map f >>= g) = x >>= fun a => g (f a) := by
  cases x <;> rfl

end

section
variable (s : State) (a v : Word) (d : Reg)

theorem loadWord_eq_checkThenPerform : s.loadWord a d = s.checkThenPerform (.loadWord a d) := by
  change (s.checkWord a >>= _) >>= _ = (s.checkWord a).map _
  cases s.checkWord a <;> rfl

theorem loadByteZ_eq_checkThenPerform : s.loadByteZ a d = s.checkThenPerform (.loadByteZ a d) := by
  change (s.checkByte a >>= _) >>= _ = (s.checkByte a).map _
  cases s.checkByte a <;> rfl

theorem loadByteS_eq_checkThenPerform : s.loadByteS a d = s.checkThenPerform (.loadByteS a d) := by
  change (s.checkByte a >>= _) >>= _ = (s.checkByte a).map _
  cases s.checkByte a <;> rfl

theorem storeWord_eq_checkThenPerform : s.storeWord a d = s.checkThenPerform (.storeWord a d) := by
  change (s.checkWord a >>= _) >>= _ = (s.checkWord a).map _
  cases s.checkWord a <;> rfl

theorem storeByte_eq_checkThenPerform : s.storeByte a d = s.checkThenPerform (.storeByte a d) := by
  change (s.checkByte a >>= _) >>= _ = (s.checkByte a).map _
  cases s.checkByte a <;> rfl

theorem pushWord_eq_map : s.pushWord v = (s.checkWord (s.sp - 2)).map fun _ => s.pushed v := by
  change (s.checkWord (s.sp - 2) >>= _) >>= _ = _
  cases s.checkWord (s.sp - 2) <;> rfl

theorem push_eq_checkThenPerform :
    (s.pushWord (s.regs.get d) >>= fun t => pure t.retire) = s.checkThenPerform (.push d) := by
  rw [pushWord_eq_map, map_bind]
  exact bind_pure_eq_map ..

theorem callTo_eq_checkThenPerform : s.callTo a = s.checkThenPerform (.call a) := by
  rw [State.callTo, pushWord_eq_map, map_bind]
  exact bind_pure_eq_map ..

theorem topWord_eq_map : s.topWord = (s.checkWord s.sp).map fun _ => wordAt s s.sp :=
  bind_pure_eq_map ..

theorem pop_eq_checkThenPerform :
    (s.topWord >>= fun v => pure (s.dropWord.writeBack d v)) = s.checkThenPerform (.pop d) := by
  rw [topWord_eq_map, map_bind]
  exact bind_pure_eq_map ..

theorem ret_eq_checkThenPerform :
    (s.topWord >>= fun v => pure (s.dropWord.retireTo v)) = s.checkThenPerform .ret := by
  rw [topWord_eq_map, map_bind]
  exact bind_pure_eq_map ..

theorem readProg_eq_checkThenPerform :
    (s.readProg a >>= fun v => pure (s.writeBack d v)) = s.checkThenPerform (.readProg a d) := by
  change (if s.progPopulated a then _ else _) >>= _ = (if s.progPopulated a then _ else _ : Attempt Unit).map _
  cases s.progPopulated a <;> rfl

end

/-- The operand form gives the operands that the meaning reads, the effect what it does with them. Only the
loads, stores and stack accesses need a lemma: the model reads and writes memory within one computation, an
effect checks the access and then performs it. -/
theorem exec_eq_plan (i : Instr) (s : State) : exec i s = (s.plan i >>= s.checkThenPerform).outcome := by
  symm
  cases i
  case pfixK | pfixzK | leaMr | movKr | cmpRk | addKr | subKr | andKr | orKr | leaSr | jmpK | addRrr
      | adcRrr | subRrr | subcRrr | orRrr | andRrr | xorRrr | selCrrr | setCr | movRr | cmpRr | zextRr
      | sextRr | bswapRr | sextwRr | lsrRr | lslRr | asrRr | negRr | notRr | jmpR =>
    exact congrArg Attempt.outcome (map_bind ..)
  case movwMr | movwSr | movwNr | movwAr =>
    exact congrArg Attempt.outcome
      ((map_bind ..).trans (bind_congr fun _ => (loadWord_eq_checkThenPerform ..).symm))
  case movzbMr | movzbSr | movzbNr | movzbAr =>
    exact congrArg Attempt.outcome
      ((map_bind ..).trans (bind_congr fun _ => (loadByteZ_eq_checkThenPerform ..).symm))
  case movsbMr | movsbSr | movsbNr | movsbAr =>
    exact congrArg Attempt.outcome
      ((map_bind ..).trans (bind_congr fun _ => (loadByteS_eq_checkThenPerform ..).symm))
  case movwRm | movwRs | movwRn | movwRa =>
    exact congrArg Attempt.outcome
      ((map_bind ..).trans (bind_congr fun _ => (storeWord_eq_checkThenPerform ..).symm))
  case movbRm | movbRs | movbRn | movbRa =>
    exact congrArg Attempt.outcome
      ((map_bind ..).trans (bind_congr fun _ => (storeByte_eq_checkThenPerform ..).symm))
  case callK | callR =>
    exact congrArg Attempt.outcome
      ((map_bind ..).trans (bind_congr fun _ => (callTo_eq_checkThenPerform ..).symm))
  case pushR =>
    exact congrArg Attempt.outcome
      ((map_bind ..).trans (bind_congr fun _ => (push_eq_checkThenPerform ..).symm))
  case popR =>
    exact congrArg Attempt.outcome
      ((map_bind ..).trans (bind_congr fun _ => (pop_eq_checkThenPerform ..).symm))
  case movwPr =>
    exact congrArg Attempt.outcome
      ((map_bind ..).trans (bind_congr fun _ => (readProg_eq_checkThenPerform ..).symm))
  case brCk cc a =>
    refine congrArg Attempt.outcome ((map_bind ..).trans (bind_congr fun _ => ?_))
    cases s.status.holds cc <;> rfl
  case ret =>
    refine congrArg Attempt.outcome (Eq.trans (bind_assoc ..) (bind_congr fun _ => ?_))
    exact (ret_eq_checkThenPerform s).symm
  case reti | dint | eint | halt => exact congrArg Attempt.outcome (bind_assoc ..)
  all_goals rfl

section
variable {s t : State} {i : Instr} {e : Effect} {r : Refusal}

theorem checkThenPerform_eq_ok :
    s.checkThenPerform e = .ok t ↔ s.checkAccess e = .ok () ∧ t = s.perform e := by
  rw [State.checkThenPerform, map_eq_ok]
  exact ⟨fun ⟨(), hcheck, h⟩ => ⟨hcheck, h.symm⟩, fun ⟨hcheck, h⟩ => ⟨(), hcheck, h.symm⟩⟩

/-- Everything an instruction can do when it answers a next state. -/
theorem exec_eq_next :
    exec i s = .next t ↔ ∃ e, s.plan i = .ok e ∧ s.checkAccess e = .ok () ∧ t = s.perform e := by
  simp only [exec_eq_plan, outcome_eq_next, bind_eq_ok, checkThenPerform_eq_ok]

/-- Everything that can stop an instruction: its operands, then the access of its effect. -/
theorem exec_eq_refused :
    exec i s = .refused r ↔
      s.plan i = .error r ∨ ∃ e, s.plan i = .ok e ∧ s.checkAccess e = .error r := by
  simp only [exec_eq_plan, outcome_eq_refused, bind_eq_error, State.checkThenPerform, map_eq_error]

theorem exec_ne_fault {f : Fault} : exec i s ≠ .fault f := by
  rw [exec_eq_plan]
  exact outcome_ne_fault

theorem exec_of_plan (hplan : s.plan i = .ok e) (hcheck : s.checkAccess e = .ok ()) :
    exec i s = .next (s.perform e) :=
  exec_eq_next.2 ⟨e, hplan, hcheck, rfl⟩

end

end Sys2Proof.Machine
end

section
/-! PROOFS. What an instruction leaves unchanged (spec/10_state.md R26, R28, spec/20_memory.md R53, R58):
the kind of effect each instruction comes to, what each effect keeps, and from the two the frames. -/

namespace Sys2Proof.Machine

open Sys2Proof.Claim

/-! ### The kind of an effect -/

/-- The register an effect writes. -/
def Effect.destination : Effect → Option Reg
  | .write d _ | .writeArith d _ | .writeLogic d _ => some d
  | .loadWord _ d | .loadByteZ _ d | .loadByteS _ d | .pop d | .readProg _ d => some d
  | _ => none

/-- The effect writes V, S, C, Z. -/
def Effect.updatesSR : Effect → Bool
  | .writeArith .. | .writeLogic .. | .compare .. => true
  | _ => false

/-- The effect writes AC, AZ. -/
def Effect.updatesAR : Effect → Bool
  | .writeArith .. => true
  | _ => false

/-- The effect draws C and V. -/
def Effect.draws : Effect → Bool
  | .writeLogic .. => true
  | _ => false

/-- The effect writes I. -/
def Effect.writesI : Effect → Bool
  | .setI .. => true
  | _ => false

/-- The effect writes H. -/
def Effect.halts : Effect → Bool
  | .halt => true
  | _ => false

/-- The effect writes data memory. -/
def Effect.stores : Effect → Bool
  | .storeWord .. | .storeByte .. | .push .. | .call .. => true
  | _ => false

/-- The effect moves SP. -/
def Effect.movesSp : Effect → Bool
  | .push .. | .pop .. | .call .. | .ret => true
  | _ => false

/-- The effect goes elsewhere than the next word. -/
def Effect.transfers : Effect → Bool
  | .goto .. | .call .. | .ret => true
  | _ => false

/-- The prefix that an effect leaves pending. -/
def Effect.leavesPfx : Effect → Option Pfx
  | .leavePfx x => some x
  | _ => none

/-- The instructions that move SP (43_memory.md R223, 44_branch.md R243, R247). -/
def usesStack : Instr → Bool
  | .pushR .. | .popR .. | .callR .. | .callK .. | .ret => true
  | _ => false

/-- The transfers (10_state.md R24). -/
def isTransfer : Instr → Bool
  | .brCk .. | .jmpK .. | .callK .. | .jmpR .. | .callR .. | .ret => true
  | _ => false

/-- The effect is of the kind of the instruction, in the terms of the statements. -/
structure Effect.Of (e : Effect) (i : Instr) : Prop where
  destination : e.destination.map fieldOfReg = Claim.destination i
  updatesSR : e.updatesSR = Claim.updatesSR i
  updatesAR : e.updatesAR = Claim.updatesAR i
  draws : e.draws = isLogic i
  writesI : e.writesI = decide (i = .eint ∨ i = .dint)
  halts : e.halts = decide (i = .halt)
  stores : e.stores = Claim.stores i
  movesSp : e.movesSp = usesStack i
  transfers : e.transfers = isTransfer i
  leavesPfx : e.leavesPfx = i.leavesPfx

/-! ### An instruction plans an effect of its kind -/

/-- The effects a form can come to: its registers are those the fields name. -/
def Form.Yields : Form → Effect → Prop
  | .p x, e => e = .leavePfx x
  | .i1 _ _ rd f, e => ∃ a d, rd = fieldOfReg d ∧ e = f a d
  | .i2 rd f, e | .oneReg rd f, e | .absolute rd f, e => ∃ d, rd = fieldOfReg d ∧ e = f d
  | .j e', e => e = e'
  | .r1 _ _ rd f, e => ∃ v w d, rd = fieldOfReg d ∧ e = f v w d
  | .r2 _ rd f, e => ∃ v d, rd = fieldOfReg d ∧ e = f v d
  | .noReg x, e => x = .ok e
  | .stop _, _ => False

theorem yields_of_readForm {s : State} {F : Form} {e : Effect} (h : s.readForm F = .ok e) :
    F.Yields e := by
  cases F with
  | p x | j e' =>
    obtain ⟨_, -, rfl⟩ := map_eq_ok.1 h
    exact rfl
  | i1 k rs rd f =>
    obtain ⟨o, ho, rfl⟩ := map_eq_ok.1 h
    obtain ⟨b, d, -, rfl, rfl⟩ := operandsI1_eq_ok.1 ho
    exact ⟨_, d, rfl, rfl⟩
  | i2 rd f =>
    obtain ⟨d, hd, rfl⟩ := map_eq_ok.1 h
    exact ⟨d, (operandsI2_eq_ok.1 hd).2, rfl⟩
  | r1 rn rs rd f =>
    obtain ⟨o, ho, rfl⟩ := map_eq_ok.1 h
    obtain ⟨-, a, n, d, -, -, rfl, rfl⟩ := operandsR1_eq_ok.1 ho
    exact ⟨_, _, d, rfl, rfl⟩
  | r2 rs rd f =>
    obtain ⟨o, ho, rfl⟩ := map_eq_ok.1 h
    obtain ⟨-, r, d, -, rfl, rfl⟩ := operandsR2_eq_ok.1 ho
    exact ⟨_, d, rfl, rfl⟩
  | oneReg rd f =>
    obtain ⟨d, hd, rfl⟩ := map_eq_ok.1 h
    exact ⟨d, (operandsRd_eq_ok.1 hd).2, rfl⟩
  | noReg x =>
    obtain ⟨_, -, hx⟩ := bind_eq_ok.1 h
    exact hx
  | absolute rd f =>
    obtain ⟨d, hd, rfl⟩ := map_eq_ok.1 h
    exact ⟨d, register_eq_ok.1 hd, rfl⟩
  | stop r => cases h

theorem of_plan {s : State} {i : Instr} {e : Effect} (h : s.plan i = .ok e) : e.Of i := by
  have hy : (s.form i).Yields e := yields_of_readForm h
  cases i
  case pfixK | pfixzK | brCk | jmpK | callK =>
    obtain rfl := hy
    exact ⟨rfl, rfl, rfl, rfl, rfl, rfl, rfl, rfl, rfl, rfl⟩
  case leaMr | movwMr | movzbMr | movsbMr | movwRm | movbRm | movRr | cmpRr | zextRr | sextRr | bswapRr
      | sextwRr | lsrRr | lslRr | asrRr | movwPr | negRr | notRr =>
    obtain ⟨v, d, rfl, rfl⟩ := hy
    exact ⟨rfl, rfl, rfl, rfl, rfl, rfl, rfl, rfl, rfl, rfl⟩
  case movKr | cmpRk | addKr | subKr | andKr | orKr | leaSr | movwSr | movsbSr | movzbSr | movwRs | movbRs
      | setCr | jmpR | callR | pushR | popR | movwAr | movzbAr | movsbAr | movwRa | movbRa =>
    obtain ⟨d, rfl, rfl⟩ := hy
    exact ⟨rfl, rfl, rfl, rfl, rfl, rfl, rfl, rfl, rfl, rfl⟩
  case addRrr | adcRrr | subRrr | subcRrr | orRrr | andRrr | xorRrr | movwNr | movzbNr | movsbNr | movwRn
      | movbRn | selCrrr =>
    obtain ⟨v, w, d, rfl, rfl⟩ := hy
    exact ⟨rfl, rfl, rfl, rfl, rfl, rfl, rfl, rfl, rfl, rfl⟩
  case ret | dint | eint | halt =>
    obtain rfl := Except.ok.inj hy
    exact ⟨rfl, rfl, rfl, rfl, rfl, rfl, rfl, rfl, rfl, rfl⟩
  all_goals cases hy

/-! ### What an effect keeps -/

section
variable (s : State) {e : Effect}

theorem perform_regs {r : Reg} (h : e.destination ≠ some r) :
    (s.perform e).regs.get r = s.regs.get r := by
  cases e with
  | write | writeArith | writeLogic | loadWord | loadByteZ | loadByteS | pop | readProg =>
    exact Regs.get_set_ne _ _ fun hr => h (congrArg some hr.symm)
  | _ => rfl

theorem perform_sr (h : e.updatesSR = false) :
    (s.perform e).status.v = s.status.v ∧ (s.perform e).status.s = s.status.s ∧
      (s.perform e).status.c = s.status.c ∧ (s.perform e).status.z = s.status.z := by
  cases e with
  | writeArith | writeLogic | compare => cases h
  | _ => exact ⟨rfl, rfl, rfl, rfl⟩

theorem perform_ar (h : e.updatesAR = false) :
    (s.perform e).status.ac = s.status.ac ∧ (s.perform e).status.az = s.status.az := by
  cases e with
  | writeArith => cases h
  | _ => exact ⟨rfl, rfl⟩

theorem perform_i (h : e.writesI = false) : (s.perform e).status.i = s.status.i := by
  cases e with
  | setI => cases h
  | _ => rfl

theorem perform_halted (h : e.halts = false) : (s.perform e).halted = s.halted := by
  cases e with
  | halt => cases h
  | _ => rfl

theorem perform_sp (h : e.movesSp = false) : (s.perform e).sp = s.sp := by
  cases e with
  | push | pop | call | ret => cases h
  | _ => rfl

theorem perform_pc (h : e.transfers = false) : (s.perform e).pc = s.pc + 1 := by
  cases e with
  | goto | call | ret => cases h
  | _ => rfl

variable (e)

theorem perform_pmem : (s.perform e).pmem = s.pmem := by cases e <;> rfl

theorem perform_params : (s.perform e).params = s.params := by cases e <;> rfl

theorem perform_requests : (s.perform e).requests = s.requests := by cases e <;> rfl

theorem perform_pfx : (s.perform e).pfx = e.leavesPfx := by cases e <;> rfl

theorem perform_draws : (s.perform e).draws = if e.draws then s.draws + 1 else s.draws := by
  cases e <;> rfl

end

/-! ### The frames of an instruction -/

/-- Settles O51: the effect is of the instruction's kind, and writes its destination only. -/
theorem registerFrame : Obligations.RegisterFrame := by
  intro i s t h r hr
  obtain ⟨e, hplan, -, rfl⟩ := exec_eq_next.1 h
  refine perform_regs s fun he => hr ?_
  rw [← (of_plan hplan).destination, he]
  rfl

/-- Settles O52: the flags an effect can write are those of its instruction's kind. -/
theorem flagFrame : Obligations.FlagFrame := by
  intro i s t h
  obtain ⟨e, hplan, -, rfl⟩ := exec_eq_next.1 h
  have hof := of_plan hplan
  refine ⟨fun hi => perform_sr s (hof.updatesSR.trans hi), fun hi => perform_ar s (hof.updatesAR.trans hi),
    fun heint hdint => perform_i s (hof.writesI.trans ?_)⟩
  exact decide_eq_false (not_or.2 ⟨heint, hdint⟩)

theorem usesStack_eq_false {i : Instr} (hreg : ∀ d, i ≠ .pushR d ∧ i ≠ .popR d ∧ i ≠ .callR d)
    (hcall : ∀ a, i ≠ .callK a) (hret : i ≠ .ret) : usesStack i = false := by
  unfold usesStack
  split
  case h_1 d => exact absurd rfl (hreg d).1
  case h_2 d => exact absurd rfl (hreg d).2.1
  case h_3 d => exact absurd rfl (hreg d).2.2
  case h_4 a => exact absurd rfl (hcall a)
  case h_5 => exact absurd rfl hret
  case h_6 => rfl

theorem isTransfer_eq_false {i : Instr} (hrel : ∀ cc a, i ≠ .brCk cc a ∧ i ≠ .jmpK a ∧ i ≠ .callK a)
    (hreg : ∀ d, i ≠ .jmpR d ∧ i ≠ .callR d) (hret : i ≠ .ret) : isTransfer i = false := by
  unfold isTransfer
  split
  case h_1 cc a => exact absurd rfl (hrel cc a).1
  case h_2 a => exact absurd rfl (hrel .eq a).2.1
  case h_3 a => exact absurd rfl (hrel .eq a).2.2
  case h_4 d => exact absurd rfl (hreg d).1
  case h_5 d => exact absurd rfl (hreg d).2
  case h_6 => exact absurd rfl hret
  case h_7 => rfl

/-- Settles O54: what every effect keeps, and what only an effect of the named kinds changes. -/
theorem restFrame : Obligations.RestFrame := by
  intro i s t h
  obtain ⟨e, hplan, -, rfl⟩ := exec_eq_next.1 h
  have hof := of_plan hplan
  refine ⟨perform_pmem s e, perform_params s e, perform_requests s e,
    fun hi => perform_halted s (hof.halts.trans (decide_eq_false hi)),
    fun hreg hcall hret => perform_sp s (hof.movesSp.trans (usesStack_eq_false hreg hcall hret)),
    (perform_pfx s e).trans hof.leavesPfx, ?draws⟩
  rw [perform_draws, hof.draws]

/-- Settles O58: an instruction that is no transfer comes to an effect that goes to the next word. -/
theorem pcAdvancesByOne : Obligations.PcAdvancesByOne := by
  intro i s t h hrel hreg hret
  obtain ⟨e, hplan, -, rfl⟩ := exec_eq_next.1 h
  exact perform_pc s ((of_plan hplan).transfers.trans (isTransfer_eq_false hrel hreg hret))

end Sys2Proof.Machine
end

section
/-! PROOFS. Which accesses an instruction makes and what stops it (spec/20_memory.md R50, R56, R58,
spec/60_exceptions.md R281, R285): the addresses of the statements are those of its effect, and the
refusals of the operands are told by the operand forms. -/

namespace Sys2Proof.Machine

open Sys2Proof.Claim

/-! ### The address of the access -/

/-- The address of the word of data memory that an effect reads or writes. -/
def State.wordAddressOf (s : State) : Effect → Option Word
  | .loadWord a _ | .storeWord a _ => some a
  | .push _ | .call _ => some (s.sp - 2)
  | .pop _ | .ret => some s.sp
  | _ => none

/-- The address of the byte of data memory that an effect reads or writes. -/
def Effect.byteAddress : Effect → Option Word
  | .loadByteZ a _ | .loadByteS a _ | .storeByte a _ => some a
  | _ => none

theorem map_toOption_bind_some {α β γ : Type} {f : α → β} {g : β → Option γ} (x : Attempt α) (h : α → γ)
    (hg : ∀ a, g (f a) = some (h a)) : x.toOption.map h = (x.map f).toOption.bind g := by
  cases x with
  | error r => rfl
  | ok a => exact (hg a).symm

theorem map_toOption_bind_none {α β γ : Type} {f : α → β} {g : β → Option γ} (x : Attempt α)
    (hg : ∀ a, g (f a) = none) : none = (x.map f).toOption.bind g := by
  cases x with
  | error r => rfl
  | ok a => exact (hg a).symm

/-- The word address of a statement is that of the effect the instruction comes to. -/
theorem wordAddress_eq_bind (i : Instr) (s : State) :
    wordAddress i s = (s.plan i).toOption.bind s.wordAddressOf := by
  cases i
  case movwMr | movwRm | movwSr | movwRs | movwNr | movwRn | movwAr | movwRa | pushR | popR | callR | callK =>
    exact map_toOption_bind_some _ _ fun _ => rfl
  case ret =>
    change s.checkUnprefixed.toOption.map _ = (s.checkUnprefixed >>= _).toOption.bind _
    cases s.checkUnprefixed <;> rfl
  case reti | dint | eint | halt =>
    change none = (s.checkUnprefixed >>= _).toOption.bind _
    cases s.checkUnprefixed <;> rfl
  case pfixK | pfixzK | leaMr | movKr | cmpRk | addKr | subKr | andKr | orKr | leaSr | brCk | jmpK | addRrr
      | adcRrr | subRrr | subcRrr | orRrr | andRrr | xorRrr | selCrrr | setCr | movRr | cmpRr | zextRr
      | sextRr | bswapRr | sextwRr | lsrRr | lslRr | asrRr | negRr | notRr | jmpR | movwPr | movzbMr
      | movsbMr | movbRm | movzbSr | movsbSr | movbRs | movzbNr | movsbNr | movbRn | movzbAr | movsbAr
      | movbRa =>
    exact map_toOption_bind_none _ fun _ => rfl
  all_goals rfl

theorem byteAddress_eq_bind (i : Instr) (s : State) :
    byteAddress i s = (s.plan i).toOption.bind Effect.byteAddress := by
  cases i
  case movzbMr | movsbMr | movbRm | movzbSr | movsbSr | movbRs | movzbNr | movsbNr | movbRn | movzbAr
      | movsbAr | movbRa =>
    exact map_toOption_bind_some _ _ fun _ => rfl
  case ret | reti | dint | eint | halt =>
    change none = (s.checkUnprefixed >>= _).toOption.bind _
    cases s.checkUnprefixed <;> rfl
  case pfixK | pfixzK | leaMr | movKr | cmpRk | addKr | subKr | andKr | orKr | leaSr | brCk | jmpK | addRrr
      | adcRrr | subRrr | subcRrr | orRrr | andRrr | xorRrr | selCrrr | setCr | movRr | cmpRr | zextRr
      | sextRr | bswapRr | sextwRr | lsrRr | lslRr | asrRr | negRr | notRr | jmpR | movwPr | movwMr | movwRm
      | movwSr | movwRs | movwNr | movwRn | movwAr | movwRa | pushR | popR | callR | callK =>
    exact map_toOption_bind_none _ fun _ => rfl
  all_goals rfl

theorem toOption_bind_eq_some {α β : Type} {x : Attempt α} {g : α → Option β} {b : β} :
    x.toOption.bind g = some b ↔ ∃ a, x = .ok a ∧ g a = some b := by
  cases x <;> simp [Except.toOption]

section
variable {s : State} {i : Instr} {e : Effect} {a : Word} {r : Refusal}

theorem wordAddress_eq_some :
    wordAddress i s = some a ↔ ∃ e, s.plan i = .ok e ∧ s.wordAddressOf e = some a := by
  rw [wordAddress_eq_bind, toOption_bind_eq_some]

theorem byteAddress_eq_some :
    byteAddress i s = some a ↔ ∃ e, s.plan i = .ok e ∧ e.byteAddress = some a := by
  rw [byteAddress_eq_bind, toOption_bind_eq_some]

theorem wordAddress_of_plan (hplan : s.plan i = .ok e) : wordAddress i s = s.wordAddressOf e := by
  rw [wordAddress_eq_bind, hplan]
  rfl

theorem byteAddress_of_plan (hplan : s.plan i = .ok e) : byteAddress i s = e.byteAddress := by
  rw [byteAddress_eq_bind, hplan]
  rfl

/-! ### Access refusals -/

theorem checkAccess_of_wordAddressOf (h : s.wordAddressOf e = some a) : s.checkAccess e = s.checkWord a := by
  cases e with
  | loadWord | storeWord | push | call | pop | ret =>
    obtain rfl := Option.some.inj h
    rfl
  | _ => cases h

theorem checkAccess_of_byteAddress (h : e.byteAddress = some a) : s.checkAccess e = s.checkByte a := by
  cases e with
  | loadByteZ | loadByteS | storeByte =>
    obtain rfl := Option.some.inj h
    rfl
  | _ => cases h

theorem exec_refused_of_wordAddress (ha : wordAddress i s = some a) (h : s.checkWord a = .error r) :
    exec i s = .refused r := by
  obtain ⟨e, hplan, he⟩ := wordAddress_eq_some.1 ha
  exact exec_eq_refused.2 (.inr ⟨e, hplan, (checkAccess_of_wordAddressOf he).trans h⟩)

theorem exec_refused_of_byteAddress (ha : byteAddress i s = some a) (h : s.checkByte a = .error r) :
    exec i s = .refused r := by
  obtain ⟨e, hplan, he⟩ := byteAddress_eq_some.1 ha
  exact exec_eq_refused.2 (.inr ⟨e, hplan, (checkAccess_of_byteAddress he).trans h⟩)

end

/-- Settles O40: the address is that of the effect, and its check refuses an odd one. -/
theorem misalignedWordRefused : Obligations.MisalignedWordRefused := fun _ _ _ ha hodd =>
  exec_refused_of_wordAddress ha (checkWord_of_odd hodd)

/-- Settles O41: as for O40, with the population rules of a word and of a byte. -/
theorem unpopulatedAccessRefused : Obligations.UnpopulatedAccessRefused := by
  intro i s a
  refine ⟨fun ha heven hunpop => exec_refused_of_wordAddress ha ?_,
    fun ha hunpop => exec_refused_of_byteAddress ha (checkByte_eq_error.2 ⟨hunpop, rfl⟩)⟩
  exact checkWord_eq_error.2 (.inr ⟨getLsbD_zero_eq_false.2 heven, hunpop, rfl⟩)

/-! ### The bytes an effect keeps -/

section
variable (s : State) {e : Effect} {a b : Word}

theorem perform_byteAt_of_not_stores (h : e.stores = false) : (s.perform e).byteAt b = s.byteAt b := by
  cases e with
  | storeWord | storeByte | push | call => cases h
  | _ => rfl

theorem perform_byteAt_of_wordAddressOf (hstores : e.stores = true) (ha : s.wordAddressOf e = some a)
    (h : b ≠ a) (h' : b ≠ a + 1) : (s.perform e).byteAt b = s.byteAt b := by
  cases e with
  | storeWord | push | call =>
    obtain rfl := Option.some.inj ha
    exact byteAt_setWord_ne (s := s) h h'
  | loadWord | pop | ret => cases hstores
  | _ => cases ha

theorem perform_byteAt_of_byteAddress (hstores : e.stores = true) (ha : e.byteAddress = some a)
    (h : b ≠ a) : (s.perform e).byteAt b = s.byteAt b := by
  cases e with
  | storeByte =>
    obtain rfl := Option.some.inj ha
    exact State.byteAt_setByte_ne (s := s) h
  | loadByteZ | loadByteS => cases hstores
  | _ => cases ha

theorem address_of_stores (hstores : e.stores = true) :
    s.wordAddressOf e ≠ none ∨ e.byteAddress ≠ none := by
  cases e with
  | storeWord | push | call => exact .inl (Option.some_ne_none _)
  | storeByte => exact .inr (Option.some_ne_none _)
  | _ => cases hstores

end

/-- Settles O53: an effect that stores has an address, that of the instruction, and keeps the rest. -/
theorem memoryFrame : Obligations.MemoryFrame := by
  intro i s t h
  obtain ⟨e, hplan, -, rfl⟩ := exec_eq_next.1 h
  rw [← (of_plan hplan).stores, wordAddress_of_plan hplan, byteAddress_of_plan hplan]
  exact ⟨fun hnot b => perform_byteAt_of_not_stores s hnot,
    fun hstores a ha b => perform_byteAt_of_wordAddressOf s hstores ha,
    fun hstores a ha b => perform_byteAt_of_byteAddress s hstores ha, address_of_stores s⟩

/-! ### The refusals of the operand forms -/

/-- The format of the instructions of a form. -/
def Form.format : Form → Format
  | .p _ => .p
  | .i1 .. => .i1
  | .i2 .. => .i2
  | .j _ => .j
  | .r1 .. => .r1
  | .r2 .. | .oneReg .. | .noReg _ => .r2
  | .absolute .. => .prefixedForm
  | .stop .notImplemented => .notImplemented
  | .stop _ => .reserved

/-- The register fields a form uses (60_exceptions.md R285). -/
def Form.usedFields (zeroed : Bool) : Form → List RegField
  | .i1 _ rs rd _ => rsUnless zeroed rs ++ [rd]
  | .i2 rd _ | .oneReg rd _ | .absolute rd _ => [rd]
  | .r1 rn rs rd _ => rsUnless zeroed rs ++ [rn, rd]
  | .r2 rs rd _ => [rs, rd]
  | .p _ | .j _ | .noReg _ | .stop _ => []

theorem form_format (s : State) (i : Instr) : (s.form i).format = i.format := by
  cases i <;> rfl

/-- The words not implemented have a field, which nothing reads. -/
theorem form_usedFields {i : Instr} (s : State) (zeroed : Bool) (h : i.format ≠ .notImplemented) :
    (s.form i).usedFields zeroed = i.usedFields zeroed := by
  cases i
  case movTr | movRt => exact absurd rfl h
  all_goals rfl

section
variable {s : State} {rs rn rd : RegField} {r : Refusal}

theorem rsValue_eq_error :
    s.rsValue rs = .error r ↔ s.zeroing = false ∧ rs = 7 ∧ r = .registerField7 := by
  unfold State.rsValue
  cases s.zeroing with
  | true => simp
  | false => simp [regValue_eq_error]

theorem exists_regValue_eq_ok : (∃ v, s.regValue rs = .ok v) ↔ rs ≠ 7 := by
  simp only [regValue_eq_ok, ← exists_eq_fieldOfReg]
  exact ⟨fun ⟨_, r, h, _⟩ => ⟨r, h⟩, fun ⟨r, h⟩ => ⟨_, r, h, rfl⟩⟩

theorem exists_rsValue_eq_ok : (∃ v, s.rsValue rs = .ok v) ↔ s.zeroing = true ∨ rs ≠ 7 := by
  unfold State.rsValue
  cases s.zeroing with
  | true => simp
  | false => simp [exists_regValue_eq_ok]

/-- Every prefix has a form here, so only field 7 is refused, in Rs where it is used or in Rd. -/
theorem operandsI1_eq_error {k : BitVec 5} :
    s.operandsI1 k rs rd = .error r ↔ (s.zeroing = false ∧ rs = 7 ∨ rd = 7) ∧ r = .registerField7 := by
  simp only [State.operandsI1, bind_eq_error, rsValue_eq_error, register_eq_error, pure_ne_error,
    and_false, exists_false, or_false, exists_and_right, exists_rsValue_eq_ok]
  cases s.zeroing <;> tauto

theorem operandsI2_eq_error :
    s.operandsI2 rd = .error r ↔
      (s.zeroing = true ∧ r = .prefixUndocumented) ∨
      (s.zeroing = false ∧ rd = 7 ∧ r = .registerField7) := by
  simp only [State.operandsI2, bind_eq_error, checkExtendable_eq_error, checkExtendable_eq_ok,
    register_eq_error, exists_const]

theorem operandsR1_eq_error :
    s.operandsR1 rn rs rd = .error r ↔
      ((s.pfx ≠ none ∧ s.zeroing = false) ∧ r = .prefixUndocumented) ∨
      ((s.pfx = none ∨ s.zeroing = true) ∧ (s.zeroing = false ∧ rs = 7 ∨ rn = 7 ∨ rd = 7) ∧
        r = .registerField7) := by
  simp only [State.operandsR1, bind_eq_error, checkZeroable_eq_error, checkZeroable_eq_ok,
    rsValue_eq_error, regValue_eq_error, register_eq_error, pure_ne_error, and_false, exists_false,
    or_false, exists_const, exists_and_right, exists_rsValue_eq_ok, exists_regValue_eq_ok]
  cases s.zeroing <;> tauto

end

section
variable {s : State} {F : Form} {r : Refusal}

/-- A pending prefix that the format has no form for is refused before the operands are looked at. -/
theorem readForm_of_not_runsUnder (hres : F.format ≠ .reserved) (hnot : F.format ≠ .notImplemented)
    (h : F.format.runsUnder s.pfx = false) :
    s.readForm F = .error (if F.format = .p then .prefixAfterPrefix else .prefixUndocumented) := by
  obtain ⟨q, hq⟩ : ∃ q, s.pfx = some q :=
    Option.ne_none_iff_exists'.1 fun hnone => by rw [hnone, Format.runsUnder] at h; cases h
  have hpending : s.pfx ≠ none := by rw [hq]; exact Option.some_ne_none q
  have hzero : s.zeroing = q.zero := zeroing_some hq
  rw [hq] at h
  cases F with
  | p x => exact map_eq_error.2 (checkNoPrefixPending_eq_error.2 ⟨hpending, rfl⟩)
  | i1 k rs rd f => cases h
  | i2 rd f =>
    exact map_eq_error.2 (operandsI2_eq_error.2 (.inl ⟨hzero.trans ((Bool.not_eq_false' _).mp h), rfl⟩))
  | j e =>
    exact map_eq_error.2 (checkExtendable_eq_error.2 ⟨hzero.trans ((Bool.not_eq_false' _).mp h), rfl⟩)
  | r1 rn rs rd f =>
    exact map_eq_error.2 (operandsR1_eq_error.2 (.inl ⟨⟨hpending, hzero.trans h⟩, rfl⟩))
  | r2 rs rd f => exact map_eq_error.2 (operandsR2_eq_error.2 (.inl ⟨hpending, rfl⟩))
  | oneReg rd f => exact map_eq_error.2 (operandsRd_eq_error.2 (.inl ⟨hpending, rfl⟩))
  | noReg x => exact bind_eq_error.2 (.inl (checkUnprefixed_eq_error.2 ⟨hpending, rfl⟩))
  | absolute rd f => cases h
  | stop r =>
    cases r with
    | notImplemented => exact absurd rfl hnot
    | _ => exact absurd rfl hres

theorem pfx_eq_none_of_runsUnder_r2 (h : Format.r2.runsUnder s.pfx = true) : s.pfx = none := by
  cases hs : s.pfx with
  | none => rfl
  | some q => rw [hs] at h; cases h

theorem mem_rsUnless {zeroed : Bool} {f rs : RegField} :
    f ∈ rsUnless zeroed rs ↔ zeroed = false ∧ rs = f := by
  cases zeroed <;> simp [rsUnless, eq_comm]

/-- With a prefix the format has a form for, 7 in a field it uses is refused. -/
theorem readForm_of_seven (h : F.format.runsUnder s.pfx = true) (hseven : 7 ∈ F.usedFields s.zeroing) :
    s.readForm F = .error .registerField7 := by
  cases F with
  | i1 k rs rd f =>
    refine map_eq_error.2 (operandsI1_eq_error.2 ⟨?_, rfl⟩)
    simpa only [Form.usedFields, List.mem_append, mem_rsUnless, List.mem_cons, List.not_mem_nil, or_false,
      eq_comm (a := (7 : RegField))] using hseven
  | i2 rd f =>
    have hrd : rd = 7 := (List.mem_singleton.1 hseven).symm
    refine map_eq_error.2 (operandsI2_eq_error.2 (.inr ⟨?_, hrd, rfl⟩))
    cases hs : s.pfx with
    | none => exact zeroing_none hs
    | some q =>
      rw [hs] at h
      exact (zeroing_some hs).trans ((Bool.not_eq_true' _).mp h)
  | r1 rn rs rd f =>
    refine map_eq_error.2 (operandsR1_eq_error.2 (.inr ⟨?_, ?_, rfl⟩))
    · cases hs : s.pfx with
      | none => exact .inl rfl
      | some q =>
        rw [hs] at h
        exact .inr ((zeroing_some hs).trans h)
    · simpa only [Form.usedFields, List.mem_append, mem_rsUnless, List.mem_cons, List.not_mem_nil,
        or_false, eq_comm (a := (7 : RegField))] using hseven
  | r2 rs rd f =>
    refine map_eq_error.2 (operandsR2_eq_error.2 (.inr ⟨pfx_eq_none_of_runsUnder_r2 h, ?_, rfl⟩))
    simpa only [Form.usedFields, List.mem_cons, List.not_mem_nil, or_false,
      eq_comm (a := (7 : RegField))] using hseven
  | oneReg rd f =>
    have hrd : rd = 7 := (List.mem_singleton.1 hseven).symm
    exact map_eq_error.2 (operandsRd_eq_error.2 (.inr ⟨pfx_eq_none_of_runsUnder_r2 h, hrd, rfl⟩))
  | absolute rd f =>
    exact map_eq_error.2 (register_eq_error.2 ⟨(List.mem_singleton.1 hseven).symm, rfl⟩)
  | p | j | noReg | stop => cases hseven

/-- Everything that can refuse the operands of a form. -/
theorem readForm_eq_error (h : s.readForm F = .error r) :
    r = .prefixAfterPrefix ∨ r = .prefixUndocumented ∨ r = .registerField7 ∨ F = .noReg (.error r) ∨
      F = .stop r := by
  cases F with
  | p x => exact .inl (checkNoPrefixPending_eq_error.1 (map_eq_error.1 h)).2
  | i1 k rs rd f => exact .inr (.inr (.inl (operandsI1_eq_error.1 (map_eq_error.1 h)).2))
  | i2 rd f =>
    obtain ⟨-, rfl⟩ | ⟨-, -, rfl⟩ := operandsI2_eq_error.1 (map_eq_error.1 h) <;> simp
  | j e => exact .inr (.inl (checkExtendable_eq_error.1 (map_eq_error.1 h)).2)
  | r1 rn rs rd f =>
    obtain ⟨-, rfl⟩ | ⟨-, -, rfl⟩ := operandsR1_eq_error.1 (map_eq_error.1 h) <;> simp
  | r2 rs rd f =>
    obtain ⟨-, rfl⟩ | ⟨-, -, rfl⟩ := operandsR2_eq_error.1 (map_eq_error.1 h) <;> simp
  | oneReg rd f =>
    obtain ⟨-, rfl⟩ | ⟨-, -, rfl⟩ := operandsRd_eq_error.1 (map_eq_error.1 h) <;> simp
  | noReg x =>
    obtain hpending | ⟨-, -, rfl⟩ := bind_eq_error.1 h
    · exact .inr (.inl (checkUnprefixed_eq_error.1 hpending).2)
    · simp
  | absolute rd f => exact .inr (.inr (.inl (register_eq_error.1 (map_eq_error.1 h)).2))
  | stop r' =>
    obtain rfl := Except.error.inj h
    simp

theorem checkAccess_eq_error {e : Effect} (h : s.checkAccess e = .error r) :
    r = .misalignedWord ∨ r = .unpopulatedAddress := by
  cases e with
  | loadWord | storeWord | push | call | pop | ret =>
    obtain ⟨-, rfl⟩ | ⟨-, -, rfl⟩ := checkWord_eq_error.1 h <;> simp
  | loadByteZ | loadByteS | storeByte => exact .inr (checkByte_eq_error.1 h).2
  | readProg a d =>
    change (if s.progPopulated a then .ok () else .error .unpopulatedAddress : Attempt Unit) = _ at h
    split at h
    · cases h
    · exact .inr (Except.error.inj h).symm
  | _ => cases h

end

/-! ### The refusals of an instruction -/

section
variable {s : State} {i : Instr} {r : Refusal}

theorem form_eq_noReg_error (h : s.form i = .noReg (.error r)) : r = .retiUnspecified := by
  cases i
  case reti => cases h; rfl
  all_goals cases h

theorem form_eq_stop (h : s.form i = .stop r) : r = .notImplemented ∨ r = .reservedEncoding := by
  cases i
  case movTr | movRt => cases h; exact .inl rfl
  all_goals cases h
  all_goals exact .inr rfl

end

/-- Settles O39: the prefix is the first thing an operand form looks at. -/
theorem undocumentedPrefixRefused : Obligations.UndocumentedPrefixRefused := by
  intro i s hres hnot hruns
  rw [← form_format s i] at hres hnot ⊢
  rw [Instr.runsUnder, ← form_format s i] at hruns
  exact exec_eq_refused.2 (.inl (readForm_of_not_runsUnder hres hnot hruns))

/-- Settles O38: once the prefix has passed, an operand form looks at the fields it uses. -/
theorem registerField7Refused : Obligations.RegisterField7Refused := by
  intro i s _ hnot hruns hseven
  rw [← form_usedFields s _ hnot] at hseven
  rw [Instr.runsUnder, ← form_format s i] at hruns
  exact exec_eq_refused.2 (.inl (readForm_of_seven hruns hseven))

/-- Settles O42: the refusals of the operand forms and of the accesses are all there are. -/
theorem instructionsStopOnlyByName : Obligations.InstructionsStopOnlyByName := by
  refine fun i s => ⟨fun f => exec_ne_fault, fun r h => ?_⟩
  obtain hplan | ⟨e, -, hcheck⟩ := exec_eq_refused.1 h
  · obtain rfl | rfl | rfl | hreti | hstop := readForm_eq_error hplan
    · simp
    · simp
    · simp
    · simp [form_eq_noReg_error hreti]
    · obtain rfl | rfl := form_eq_stop hstop <;> simp
  · obtain rfl | rfl := checkAccess_eq_error hcheck <;> simp

/-- Settles O37: the stops by name are forms of their own, and `reti` refuses once no prefix is pending. -/
theorem specStops : Obligations.SpecStops := by
  refine ⟨fun i s h => ?reserved, fun rd s => ⟨rfl, rfl⟩, fun s hnone => ?reti, fun s hpending => ?pending⟩
  case reserved =>
    cases i
    case reservedI1x110 | reservedI1x111 | reservedR1x0111 | reservedR1x1000 | reservedR2x110x000
        | reservedR2x011x001 | reservedR2x100x001 | reservedR2x111x001 | reservedR2x100x100
        | reservedR2x101x100 | reservedR2x101x110 | reservedR2x110x110 | reservedR2x111x110
        | reservedR2any010 | reservedR2any011 | reservedR2any101 => rfl
    all_goals cases h
  case reti =>
    exact exec_eq_refused.2 (.inl (bind_eq_error.2 (.inr ⟨(), checkUnprefixed_eq_ok.2 hnone, rfl⟩)))
  case pending =>
    exact exec_eq_refused.2 (.inl (bind_eq_error.2 (.inl (checkUnprefixed_eq_error.2 ⟨hpending, rfl⟩))))

end Sys2Proof.Machine
end

section
/-! PROOFS. The step (spec/60_exceptions.md R283 to R286, spec/70_reset_and_hazards.md R310, R314): what a
boundary decides, what every step keeps, and reset. -/

namespace Sys2Proof.Machine

open Sys2Proof.Claim

/-! ### The boundary and the fetch -/

section
variable {ε : Type} {m : IntModel ε} {env : ε} {s : State} {i : Instr} {r : Refusal}

theorem stepUnder_of_halted (h : s.halted = true) : stepUnder m env s = .fault .halted := if_pos h

theorem stepUnder_of_accepts (hrun : s.halted = false) (h : m.accepts env s = true) :
    stepUnder m env s = (m.enter s).outcome := by
  rw [stepUnder, hrun, if_neg Bool.false_ne_true, if_pos h]
  rfl

theorem stepUnder_of_fetch_ok (hrun : s.halted = false) (h : m.accepts env s = false)
    (hfetch : s.fetch = .ok i) : stepUnder m env s = execUnder m i s := by
  rw [stepUnder, hrun, h, hfetch]
  rfl

theorem stepUnder_of_fetch_error (hrun : s.halted = false) (h : m.accepts env s = false)
    (hfetch : s.fetch = .error r) : stepUnder m env s = .refused r := by
  rw [stepUnder, hrun, h, hfetch]
  rfl

theorem accepts_of_request (hrun : s.halted = false) (hreq : m.request env s = true)
    (hi : s.status.i = true) (hnone : s.pfx = none) : m.accepts env s = true :=
  accepts_eq_true.2 ⟨hreq, hi, hnone, hrun⟩

/-- Any one of the three gates keeps a request out (60_exceptions.md R284). -/
theorem accepts_eq_false (h : m.request env s = false ∨ s.status.i = false ∨ s.pfx ≠ none) :
    m.accepts env s = false := by
  rw [← Bool.not_eq_true, accepts_eq_true]
  rintro ⟨hreq, hi, hnone, -⟩
  obtain h | h | h := h
  · exact Bool.false_ne_true (h.symm.trans hreq)
  · exact Bool.false_ne_true (h.symm.trans hi)
  · exact h hnone

end

section
variable {s t : State} {i : Instr} {r : Refusal}

theorem step_of_halted (h : s.halted = true) : step s = .fault .halted := stepUnder_of_halted h

theorem step_of_acceptsRequest (h : s.acceptsRequest = true) :
    step s = .refused .interruptEntryUnspecified := by
  obtain ⟨-, -, -, hrun⟩ := accepts_eq_true.1 h
  exact stepUnder_of_accepts (s := s.pastBoundary) hrun h

theorem step_of_fetch_ok (hrun : s.halted = false) (h : s.acceptsRequest = false)
    (hfetch : s.fetch = .ok i) : step s = exec i s.pastBoundary := by
  rw [← execUnder_default]
  exact stepUnder_of_fetch_ok (s := s.pastBoundary) hrun h hfetch

theorem step_of_fetch_error (hrun : s.halted = false) (h : s.acceptsRequest = false)
    (hfetch : s.fetch = .error r) : step s = .refused r :=
  stepUnder_of_fetch_error (s := s.pastBoundary) hrun h hfetch

theorem requestPresent_eq_true : s.requestPresent = true ↔ s.requests.head? = some true := by
  unfold State.requestPresent
  cases s.requests <;> simp

theorem acceptsRequest_eq_false
    (h : s.requests.head? ≠ some true ∨ s.status.i = false ∨ s.pfx ≠ none) : s.acceptsRequest = false := by
  rw [Ne, ← requestPresent_eq_true, Bool.not_eq_true] at h
  exact accepts_eq_false h

theorem fetch_of_populated (h : s.progPopulated s.pc = true) :
    s.fetch = .ok (decode s.pfx (s.progAt s.pc)) :=
  fetch_eq_ok.2 ⟨h, rfl⟩

theorem fetch_of_unpopulated (h : s.progPopulated s.pc = false) : s.fetch = .error .unpopulatedAddress :=
  fetch_eq_error.2 ⟨h, rfl⟩

end

/-- Settles O43: past the boundary the fetched word runs. -/
theorem stepRunsDecoded : Obligations.StepRunsDecoded := by
  rintro s _ hrun hacc hpop rfl
  exact step_of_fetch_ok hrun hacc (fetch_of_populated hpop)

/-- Settles O44: the gating decides between the refused entry and the fetch, and no instruction is refused
for want of an entry. -/
theorem boundaryGating : Obligations.BoundaryGating := by
  refine fun s hrun => ⟨fun hreq hi hnone => ?accepted, fun hgate => ?passed⟩
  case accepted =>
    exact step_of_acceptsRequest (accepts_of_request hrun (requestPresent_eq_true.2 hreq) hi hnone)
  case passed =>
    have hacc := acceptsRequest_eq_false hgate
    refine ⟨fun hstep => ?_, fun hunpop => step_of_fetch_error hrun hacc (fetch_of_unpopulated hunpop)⟩
    cases hfetch : s.fetch with
    | error r =>
      obtain ⟨-, rfl⟩ := fetch_eq_error.1 hfetch
      rw [step_of_fetch_error hrun hacc hfetch] at hstep
      cases hstep
    | ok i =>
      rw [step_of_fetch_ok hrun hacc hfetch] at hstep
      have hmem := (instructionsStopOnlyByName i s.pastBoundary).2 _ hstep
      simp at hmem

theorem execRetiUnder_of_unprefixed {ε : Type} {m : IntModel ε} {s : State} (h : s.pfx = none) :
    execRetiUnder m s = (m.resume s).outcome := by
  rw [execRetiUnder, (checkUnprefixed_eq_ok (u := ())).2 h]
  rfl

theorem execRetiUnder_of_pending {ε : Type} {m : IntModel ε} {s : State} (h : s.pfx ≠ none) :
    execRetiUnder m s = .refused .prefixUndocumented := by
  rw [execRetiUnder, checkUnprefixed_eq_error.2 ⟨h, rfl⟩]
  rfl

/-- Settles O45: the gating decides between m's entry and the fetch, and `reti` is m's return. -/
theorem stepUnderAnyIntModel : Obligations.StepUnderAnyIntModel := by
  refine ⟨fun ε m env s => ⟨stepUnder_of_halted, fun hrun hreq hi hnone => ?entry,
    fun hrun hgate => ⟨fun hunpop => ?unpopulated, fun hpop hne => ?other, fun hpop hreti => ?reti⟩⟩,
    fun s => rfl, fun present s => ⟨rfl, rfl, rfl⟩⟩
  case entry =>
    rw [stepUnder_of_accepts hrun (accepts_of_request hrun hreq hi hnone)]
    exact ⟨fun t => outcome_eq_next.2, fun r => outcome_eq_refused.2⟩
  case unpopulated =>
    exact stepUnder_of_fetch_error hrun (accepts_eq_false hgate) (fetch_of_unpopulated hunpop)
  case other =>
    rw [stepUnder_of_fetch_ok hrun (accepts_eq_false hgate) (fetch_of_populated hpop),
      execUnder_of_ne m s hne]
  case reti =>
    have hfetch := fetch_of_populated hpop
    rw [hreti] at hfetch
    rw [stepUnder_of_fetch_ok hrun (accepts_eq_false hgate) hfetch, execUnder_reti]
    refine ⟨execRetiUnder_of_pending, fun hnone => ?_⟩
    rw [execRetiUnder_of_unprefixed hnone]
    exact ⟨fun t => outcome_eq_next.2, fun r => outcome_eq_refused.2⟩

theorem withFetchWord_toNat (s : State) (w : Word) : s.withFetchWord 16 w.toNat = s.placeAtPc w := by
  rw [State.withFetchWord, Nat.mod_eq_of_lt w.isLt, BitVec.ofNat_toNat, BitVec.setWidth_eq]

/-- Settles O46: the word placed at pc is the word fetched. -/
theorem fetchWordRuns : Obligations.FetchWordRuns := by
  intro s w hrun hnone hcalm hpop
  rw [withFetchWord_toNat]
  have hfetch : (s.placeAtPc w).fetch = .ok (decode none w) :=
    fetch_eq_ok.2 ⟨hpop, by rw [State.placeAtPc_pfx, State.placeAtPc_pc, State.progAt_placeAtPc, hnone]⟩
  exact step_of_fetch_ok (s := s.placeAtPc w) hrun hcalm.acceptsRequest hfetch

/-! ### Requests that are not accepted -/

/-- The requests presented are no operand of an instruction. -/
theorem form_requests (s : State) (env : List Bool) (i : Instr) :
    State.form { s with requests := env } i = s.form i := by
  cases i <;> rfl

theorem readForm_requests (s : State) (env : List Bool) (F : Form) :
    State.readForm { s with requests := env } F = s.readForm F := by
  cases F <;> rfl

theorem plan_requests (s : State) (env : List Bool) (i : Instr) :
    State.plan { s with requests := env } i = s.plan i := by
  rw [State.plan, form_requests, readForm_requests, State.plan]

theorem checkAccess_requests (s : State) (env : List Bool) (e : Effect) :
    State.checkAccess { s with requests := env } e = s.checkAccess e := by
  cases e <;> rfl

theorem perform_withRequests (s : State) (env : List Bool) (e : Effect) :
    State.perform { s with requests := env } e = { s.perform e with requests := env } := by
  cases e <;> rfl

theorem exec_requests_eq_refused {s : State} (env : List Bool) {i : Instr} {r : Refusal} :
    exec i { s with requests := env } = .refused r ↔ exec i s = .refused r := by
  simp only [exec_eq_refused, plan_requests, checkAccess_requests]

theorem exec_requests_of_next {s t : State} (env : List Bool) {i : Instr} (h : exec i s = .next t) :
    exec i { s with requests := env } = .next { t with requests := env } := by
  obtain ⟨e, hplan, hcheck, rfl⟩ := exec_eq_next.1 h
  rw [← plan_requests s env] at hplan
  rw [← checkAccess_requests s env] at hcheck
  rw [← perform_withRequests]
  exact exec_of_plan hplan hcheck

/-- Settles O60: with I = 0 the boundary is passed either way, and an instruction does not read the
requests. -/
theorem disabledInterruptsAreInvisible : Obligations.DisabledInterruptsAreInvisible := by
  intro s env hi
  have hacc : s.acceptsRequest = false := accepts_eq_false (.inr (.inl hi))
  have hacc' : State.acceptsRequest { s with requests := env } = false := accepts_eq_false (.inr (.inl hi))
  obtain hrun | hrun := Bool.eq_false_or_eq_true s.halted
  · rw [step_of_halted hrun, step_of_halted (s := { s with requests := env }) hrun]
    exact ⟨fun r => .rfl, fun t h => nomatch h⟩
  · cases hfetch : s.fetch with
    | error r =>
      rw [step_of_fetch_error hrun hacc hfetch,
        step_of_fetch_error (s := { s with requests := env }) hrun hacc' hfetch]
      exact ⟨fun r => .rfl, fun t h => nomatch h⟩
    | ok i =>
      rw [step_of_fetch_ok hrun hacc hfetch,
        step_of_fetch_ok (s := { s with requests := env }) hrun hacc' hfetch]
      exact ⟨fun r => (exec_requests_eq_refused (s := s.pastBoundary) env.tail).symm,
        fun t h => exec_requests_of_next (s := s.pastBoundary) env.tail h⟩

/-! ### What every step keeps -/

section
variable {s t : State}

/-- A step that answers a next state performs the effect of the word fetched. -/
theorem exists_perform_of_stepped (h : Stepped s t) :
    ∃ i e, s.fetch = .ok i ∧ s.pastBoundary.plan i = .ok e ∧ t = s.pastBoundary.perform e := by
  obtain ⟨-, -, i, hfetch, hexec⟩ := step_eq_next.1 h
  obtain ⟨e, hplan, -, ht⟩ := exec_eq_next.1 hexec
  exact ⟨i, e, hfetch, hplan, ht⟩

theorem setWord_dmem_wf {a v : Word} (h : s.dmem.wf = true) : (s.setWord a v).dmem.wf = true :=
  State.setByte_wf (State.setByte_wf h)

/-- Data memory changes by byte writes only, which keep the canonical form. -/
theorem perform_dmem_wf (e : Effect) (h : s.dmem.wf = true) : (s.perform e).dmem.wf = true := by
  cases e with
  | storeWord | push | call => exact setWord_dmem_wf h
  | storeByte => exact State.setByte_wf h
  | _ => exact h

/-- Settles O49: no effect leaves the canonical form, and program memory is not written. -/
theorem stepKeepsInv : Obligations.StepKeepsInv := by
  rintro s t ⟨hdmem, hpmem⟩ h
  obtain ⟨i, e, -, -, rfl⟩ := exists_perform_of_stepped h
  refine ⟨perform_dmem_wf e hdmem, ?_⟩
  rw [perform_pmem]
  exact hpmem

/-- Settles O55: no effect writes program memory or the open parameters. -/
theorem stepKeepsProgram : Obligations.StepKeepsProgram := by
  intro s t h
  obtain ⟨i, e, -, -, rfl⟩ := exists_perform_of_stepped h
  refine ⟨perform_params _ e, fun a => ?_⟩
  rw [State.progAt, perform_pmem]
  rfl

/-- A push and a call go down by one word, a pop and a return up, nothing else moves SP. -/
theorem perform_sp_cases (s : State) (e : Effect) :
    (s.perform e).sp = s.sp ∨ (s.perform e).sp = s.sp - 2 ∨ (s.perform e).sp = s.sp + 2 := by
  cases e with
  | push | call => exact .inr (.inl rfl)
  | pop | ret => exact .inr (.inr rfl)
  | _ => exact .inl rfl

theorem getLsbD_zero_congr {a b : Word} (h : a.toNat % 2 = b.toNat % 2) : a.getLsbD 0 = b.getLsbD 0 := by
  rw [Bool.eq_iff_iff, getLsbD_zero_eq_true, getLsbD_zero_eq_true, h]

theorem add_two_toNat_mod_two (a : Word) : (a + 2).toNat % 2 = a.toNat % 2 := by
  bv_omega

/-- Settles O56: SP moves by words, so its parity stays. -/
theorem stackPointerSteps : Obligations.StackPointerSteps := by
  intro s t h
  obtain ⟨i, e, -, -, rfl⟩ := exists_perform_of_stepped h
  have hsp := perform_sp_cases s.pastBoundary e
  refine ⟨hsp, getLsbD_zero_congr ?_⟩
  obtain hsp | hsp | hsp := hsp <;> rw [hsp]
  · rfl
  · exact sub_two_toNat_mod_two s.sp
  · exact add_two_toNat_mod_two s.sp

theorem leavesPfx_eq_some {i : Instr} {p : Pfx} (h : i.leavesPfx = some p) :
    i = if p.zero then .pfixzK p.imm else .pfixK p.imm := by
  unfold Instr.leavesPfx at h
  split at h
  · obtain rfl := Option.some.inj h
    rfl
  · obtain rfl := Option.some.inj h
    rfl
  · cases h

/-- Settles O57: a prefix word does not complete under a prefix, and no other word leaves one. -/
theorem prefixLivesOneWord : Obligations.PrefixLivesOneWord := by
  intro s t h
  obtain ⟨-, -, i, hfetch, hexec⟩ := step_eq_next.1 h
  obtain ⟨-, -, -, -, -, hpfx, -⟩ := restFrame i s.pastBoundary t hexec
  refine ⟨fun hpending => ?consumed, fun p hp => ?left⟩
  case left => rw [hfetch, leavesPfx_eq_some (hpfx.symm.trans hp)]
  case consumed =>
    cases hleaves : i.leavesPfx with
    | none => exact hpfx.trans hleaves
    | some p =>
      obtain ⟨z, p⟩ := p
      rw [leavesPfx_eq_some hleaves] at hexec
      have hnext := outcome_eq_next.1
        (show (s.pastBoundary.makePending ⟨z, p⟩).outcome = .next t by cases z <;> exact hexec)
      exact absurd (makePending_eq_ok.1 hnext).1 hpending

end

/-! ### Reset and halt -/

/-- Settles O48: reset lists nothing, and a reset event what its launch values list. -/
theorem resetHoldsInv : Obligations.ResetHoldsInv :=
  ⟨reset_memories_wf, fun _ _ hs hl => State.resetTo_wf hl hs.2⟩

theorem populated_wholeSpace (a : Word) : populated Config.wholeSpace a = true := by
  have := a.isLt
  simp [populated, Config.wholeSpace, BitVec.le_def]
  omega

/-- Settles O47: the fields of `State.reset`, and those of a reset event in any state. -/
theorem resetState : Obligations.ResetState := by
  refine ⟨rfl, rfl, rfl, rfl, rfl, fun r => ?regs, fun a => rfl, fun a => rfl, rfl, rfl, ?data, ?prog, rfl,
    rfl, rfl, rfl, rfl, fun ε m l s => ?event, reset_resetTo_chosen⟩
  case regs => cases r <;> rfl
  case data => exact populated_wholeSpace
  case prog => exact populated_wholeSpace
  case event =>
    exact ⟨s.resetTo l, rfl, rfl, rfl, rfl, rfl, rfl, rfl, fun a => rfl, fun a => rfl, rfl, rfl, rfl⟩

/-- Settles O36: `halt` sets H, `step` answers the fault for H alone, and a boundary leads nowhere from
H = 1. -/
theorem haltIsTerminal : Obligations.HaltIsTerminal := by
  refine ⟨fun s hnone => ?halt, fun s => step_of_halted, fun s hstep => ?running,
    fun ε m e s t hhalted h => ?event, fun ε m l s => ⟨_, rfl, rfl⟩⟩
  case halt =>
    have hplan : s.plan .halt = .ok .halt :=
      bind_eq_ok.2 ⟨(), checkUnprefixed_eq_ok.2 hnone, rfl⟩
    rw [exec_of_plan hplan rfl, State.perform, State.retire, retireTo_of_unprefixed hnone]
  case running =>
    by_contra hrun
    rw [Bool.not_eq_true] at hrun
    cases hacc : s.acceptsRequest with
    | true => rw [step_of_acceptsRequest hacc] at hstep; cases hstep
    | false =>
      cases hfetch : s.fetch with
      | error r => rw [step_of_fetch_error hrun hacc hfetch] at hstep; cases hstep
      | ok i =>
        rw [step_of_fetch_ok hrun hacc hfetch] at hstep
        exact exec_ne_fault hstep
  case event =>
    obtain ⟨env, -, hstep⟩ | ⟨l, rfl, -⟩ := advance_eq_next.1 h
    · rw [stepUnder_of_halted hhalted] at hstep
      cases hstep
    · exact ⟨l, rfl⟩

theorem perform_setI_of_unprefixed {s : State} (hnone : s.pfx = none) (b : Bool) :
    s.perform (.setI b) = { s with status := { s.status with i := b }, pc := s.pc + 1 } :=
  retireTo_of_unprefixed (s := s.setStatus { s.status with i := b }) hnone _

/-- Settles O35: with no prefix pending the effect of either changes only I and pc. -/
theorem interruptFlag : Obligations.InterruptFlag := by
  intro s hnone
  have hplan : ∀ e, (s.checkUnprefixed >>= fun _ => .ok e) = (.ok e : Attempt Effect) :=
    fun e => bind_eq_ok.2 ⟨(), checkUnprefixed_eq_ok.2 hnone, rfl⟩
  rw [exec_of_plan (i := .eint) (hplan _) rfl, exec_of_plan (i := .dint) (hplan _) rfl,
    perform_setI_of_unprefixed hnone, perform_setI_of_unprefixed hnone]
  exact ⟨rfl, rfl⟩

end Sys2Proof.Machine
end

section
/-! PROOFS. The decoder and the encoder (spec/30_encoding.md sections 1 to 4): every instruction comes back
from its words, the words in the arithmetic of the spec, and the rows of the opcode table. -/

namespace Sys2Proof.Machine

open Sys2Proof.Claim

/-! ### The round trip -/

/-- The one word of an instruction that is no prefixed form decodes to it: along the decode tree of R87 the
bits that are looked at are those of the opcode, and the fields read are those written. -/
theorem decodeWords_encode {i : Instr} (h : i.format ≠ .prefixedForm) : decodeWords none (encode i) = [i] := by
  cases i
  case pfixK | pfixzK | leaMr | movwMr | movzbMr | movsbMr | movwRm | movbRm | movKr | cmpRk | addKr | subKr
      | andKr | orKr | leaSr | movwSr | movsbSr | movzbSr | movwRs | movbRs | brCk | selCrrr | jmpK | callK
      | addRrr | adcRrr | subRrr | subcRrr | orRrr | andRrr | xorRrr | movwNr | movzbNr | movsbNr | movwRn
      | movbRn | movRr | cmpRr | zextRr | sextRr | bswapRr | sextwRr | movwPr | lsrRr | lslRr | asrRr | negRr
      | notRr | jmpR | callR | pushR | popR | movTr | movRt =>
    change [decodePlain _] = [_]
    simp (disch := decide) only [decodePlain, decodeP, decodeI1, decodeI2, decodeR1, decodeR2, decodeR2opB0,
      decodeR2opB1, decodeR2opB4, ccOf, k5Of, k8Of, a9Of, rnOf, rsOf, rdOf, ofCode_code,
      BitVec.extractLsb'_append_eq_of_le, BitVec.extractLsb'_append_eq_right, Nat.reduceSub,
      BitVec.reduceExtractLsb']
  case setCr cc rd => exact congrArg ([·]) (decode_setWord none cc 0 rd)
  case movwAr | movzbAr | movsbAr | movwRa | movbRa => exact absurd rfl h
  all_goals rfl

theorem decode_pfixzWord (p : BitVec 11) : decode none (0b11111#5 ++ p) = .pfixzK p :=
  List.head_eq_of_cons_eq (decodeWords_encode (i := .pfixzK p) nofun)

theorem decode_pfixWord (p : BitVec 11) : decode none (0b11110#5 ++ p) = .pfixK p :=
  List.head_eq_of_cons_eq (decodeWords_encode (i := .pfixK p) nofun)

theorem decode_movKrWord (k : BitVec 8) (rd : RegField) :
    decode none (0b10000#5 ++ k ++ rd) = .movKr k rd :=
  List.head_eq_of_cons_eq (decodeWords_encode (i := .movKr k rd) nofun)

/-- The two words of an absolute form: the first leaves the prefix under which the second is the form. -/
theorem decodeWords_encodeAbsolute {mk : Word → RegField → Instr} (op : BitVec 5) (a : Word) (rd : RegField)
    (hcore : decode (some ⟨true, a.extractLsb' 5 11⟩) (op ++ a.extractLsb' 0 5 ++ 0b000#3 ++ rd) = mk a rd) :
    decodeWords none (encodeAbsolute op a rd) = [.pfixzK (a.extractLsb' 5 11), mk a rd] := by
  rw [encodeAbsolute, decodeWords, decode_pfixzWord, Instr.leavesPfx, decodeWords, hcore, decodeWords]

theorem decodeWords_encode_prefixedForm {i : Instr} (h : i.format = .prefixedForm) :
    ∃ p, decodeWords none (encode i) = [.pfixzK p, i] := by
  cases i
  case movwAr a rd =>
    exact ⟨_, decodeWords_encodeAbsolute _ a rd
      (decode_absoluteWord _ a _ rd rfl decodeAbsolute_eq_movwAr)⟩
  case movzbAr a rd =>
    exact ⟨_, decodeWords_encodeAbsolute _ a rd
      (decode_absoluteWord _ a _ rd rfl decodeAbsolute_eq_movzbAr)⟩
  case movsbAr a rd =>
    exact ⟨_, decodeWords_encodeAbsolute _ a rd
      (decode_absoluteWord _ a _ rd rfl decodeAbsolute_eq_movsbAr)⟩
  case movwRa a rd =>
    exact ⟨_, decodeWords_encodeAbsolute _ a rd
      (decode_absoluteWord _ a _ rd rfl decodeAbsolute_eq_movwRa)⟩
  case movbRa a rd =>
    exact ⟨_, decodeWords_encodeAbsolute _ a rd
      (decode_absoluteWord _ a _ rd rfl decodeAbsolute_eq_movbRa)⟩
  all_goals cases h

/-- Settles O2: one word decodes to its instruction, two to a `pfixz_k` and the form it makes. -/
theorem decodeEncodeRoundTrip : Obligations.DecodeEncodeRoundTrip := by
  intro i
  by_cases h : i.format = .prefixedForm
  case neg => exact ⟨[], decodeWords_encode h, by rw [if_neg h]⟩
  case pos =>
    obtain ⟨p, hp⟩ := decodeWords_encode_prefixedForm h
    exact ⟨[.pfixzK p], hp, by rw [if_pos h]; exact ⟨p, rfl⟩⟩

/-- Settles O1: the decoder evaluated on the twelve words. -/
theorem specWordsDecode : Obligations.SpecWordsDecode := by
  unfold Obligations.SpecWordsDecode
  decide

/-! ### The words in the arithmetic of the spec -/

/-- A concatenation is its high part in place over its low one, at any width. -/
theorem append_setWidth_eq {m n : Nat} (hi : BitVec m) (lo : BitVec n) (w : Nat) :
    (hi ++ lo).setWidth w = (hi.setWidth w <<< n) ||| lo.setWidth w := by
  ext i hi'
  simp only [BitVec.getElem_shiftLeft, BitVec.getElem_or, BitVec.getElem_setWidth, BitVec.getLsbD_append]
  by_cases h : i < n
  · simp [h]
  · simp [h, BitVec.getLsbD_of_ge lo i (Nat.le_of_not_lt h)]

section
variable (k5 op5 : BitVec 5) (k8 : BitVec 8) (op7 : BitVec 7) (op4 : BitVec 4) (a : BitVec 9)
  (cc rn rs rd : BitVec 3)

/-- Format I1 (30_encoding.md R82, R96): K from bit 6. -/
theorem wordI1_eq_or : op5 ++ k5 ++ rs ++ rd = (op5.setWidth 16 <<< 11) |||
    ((k5.setWidth 16 <<< 6) ||| (rs.setWidth 16 <<< 3) ||| rd.setWidth 16) := by
  rw [← BitVec.setWidth_eq (op5 ++ k5 ++ rs ++ rd)]
  simp only [append_setWidth_eq, BitVec.shiftLeft_or_distrib, BitVec.or_assoc, ← BitVec.shiftLeft_add]

/-- Format I2 (30_encoding.md R83, R97): K from bit 3. -/
theorem wordI2_eq_or : op5 ++ k8 ++ rd = (op5.setWidth 16 <<< 11) |||
    ((k8.setWidth 16 <<< 3) ||| rd.setWidth 16) := by
  rw [← BitVec.setWidth_eq (op5 ++ k8 ++ rd)]
  simp only [append_setWidth_eq, BitVec.shiftLeft_or_distrib, BitVec.or_assoc, ← BitVec.shiftLeft_add]

/-- Format R1 (30_encoding.md R85, R98): Rn from bit 6. -/
theorem wordR1_eq_or : op7 ++ rn ++ rs ++ rd = (op7.setWidth 16 <<< 9) |||
    ((rn.setWidth 16 <<< 6) ||| (rs.setWidth 16 <<< 3) ||| rd.setWidth 16) := by
  rw [← BitVec.setWidth_eq (op7 ++ rn ++ rs ++ rd)]
  simp only [append_setWidth_eq, BitVec.shiftLeft_or_distrib, BitVec.or_assoc, ← BitVec.shiftLeft_add]

/-- `sel` (30_encoding.md R85): format R1 with the condition from bit 9. -/
theorem wordSel_eq_or : op4 ++ cc ++ rn ++ rs ++ rd = (op4.setWidth 16 <<< 12) ||| (cc.setWidth 16 <<< 9) |||
    ((rn.setWidth 16 <<< 6) ||| (rs.setWidth 16 <<< 3) ||| rd.setWidth 16) := by
  rw [← BitVec.setWidth_eq (op4 ++ cc ++ rn ++ rs ++ rd)]
  simp only [append_setWidth_eq, BitVec.shiftLeft_or_distrib, BitVec.or_assoc, ← BitVec.shiftLeft_add]

/-- `br` (30_encoding.md R84): format J with the condition from bit 9. -/
theorem wordBr_eq_or :
    op4 ++ cc ++ a = (op4.setWidth 16 <<< 12) ||| (cc.setWidth 16 <<< 9) ||| a.setWidth 16 := by
  rw [← BitVec.setWidth_eq (op4 ++ cc ++ a)]
  simp only [append_setWidth_eq, BitVec.shiftLeft_or_distrib, BitVec.or_assoc, ← BitVec.shiftLeft_add]

/-- Format R2 with its opcode first, as the tables of R99 give it. -/
theorem wordR2_eq_opcode_or (op : BitVec 10) : op ++ rs ++ rd = (op.setWidth 16 <<< 6) |||
    ((rs.setWidth 16 <<< 3) ||| rd.setWidth 16) := by
  rw [wordR2_eq_or, BitVec.or_assoc]

end

/-- Settles O3: the layout of each format, at the opcode of each instruction. -/
theorem encodingTables : Obligations.EncodingTables := by
  refine ⟨fun p => ⟨encode_pfixK p, encode_pfixzK p⟩, fun k rs rd => ?i1, fun k rd => ?i2,
    fun rn rs rd => ?r1, fun a => ?j, encode_setCr, fun rs rd => ?r2, fun rd => ?oneReg⟩
  case i1 =>
    have word (op : BitVec 5) := congrArg ([·]) (wordI1_eq_or k op rs rd)
    exact ⟨word 0b01000, word 0b01001, word 0b01010, word 0b01011, word 0b01100, word 0b01101⟩
  case i2 =>
    have word (op : BitVec 5) := congrArg ([·]) (wordI2_eq_or op k rd)
    exact ⟨word 0b10000, word 0b10001, word 0b10010, word 0b10011, word 0b10100, word 0b10101,
      word 0b10110, word 0b10111, word 0b11000, word 0b11001, word 0b11010, word 0b11011⟩
  case r1 =>
    have word (op : BitVec 7) := congrArg ([·]) (wordR1_eq_or op rn rs rd)
    exact ⟨word 0b0010000, word 0b0010001, word 0b0010010, word 0b0010011, word 0b0010100,
      word 0b0010101, word 0b0010110, word 0b0011001, word 0b0011010, word 0b0011011, word 0b0011100,
      word 0b0011101, fun cc => congrArg ([·]) (wordSel_eq_or 0b0001 cc.code rn rs rd)⟩
  case j =>
    exact ⟨congrArg ([·]) (append_eq_shiftLeft_or 0b0011110#7 a),
      congrArg ([·]) (append_eq_shiftLeft_or 0b0011111#7 a),
      fun cc => congrArg ([·]) (wordBr_eq_or 0b1110 a cc.code)⟩
  case r2 =>
    have word (op : BitVec 10) := congrArg ([·]) (wordR2_eq_opcode_or rs rd op)
    exact ⟨word 0b0000000000, word 0b0000001000, word 0b0000010000, word 0b0000011000, word 0b0000100000,
      word 0b0000101000, word 0b0000111000, word 0b0000000001, word 0b0000001001, word 0b0000010001,
      word 0b0000101001, word 0b0000110001⟩
  case oneReg =>
    exact ⟨encode_jmpR rd, encode_callR rd, encode_pushR rd, encode_popR rd,
      congrArg ([·]) (wordRd_eq_or 0b0000110100 rd), congrArg ([·]) (wordRd_eq_or 0b0000111100 rd)⟩

/-! ### Don't-care bits -/

section
variable (pfx : Option Pfx) (opA x x' y y' rd : BitVec 3)

theorem decode_wordR2_opB4_congr : decode pfx (0b0000#4 ++ opA ++ 0b100#3 ++ x ++ rd) =
    decode pfx (0b0000#4 ++ opA ++ 0b100#3 ++ x' ++ rd) := by
  simp only [decode_wordR2_opB4, decodeR2opB4, extract_opA_wordR2, rdOf_wordR2]

theorem decode_wordR2_opB6_congr : decode pfx (0b0000#4 ++ opA ++ 0b110#3 ++ x ++ y) =
    decode pfx (0b0000#4 ++ opA ++ 0b110#3 ++ x' ++ y') := by
  simp only [decode_wordR2_opB6, decodeR2opB6, extract_opA_wordR2]

theorem decode_setWord_congr : decode pfx (0b0000#4 ++ opA ++ 0b111#3 ++ x ++ rd) =
    decode pfx (0b0000#4 ++ opA ++ 0b111#3 ++ x' ++ rd) := by
  have hcode : (Cond.ofCode opA).code = opA := by revert opA; decide
  rw [← hcode, decode_setWord, decode_setWord]

end

/-- Ten opcode bits are four, opA and opB (30_encoding.md R86). -/
theorem opcodeR2_eq_append (hi : BitVec 10) :
    hi = hi.extractLsb' 6 4 ++ hi.extractLsb' 3 3 ++ hi.extractLsb' 0 3 := by
  rw [BitVec.extractLsb'_append_extractLsb'_eq_extractLsb' (by decide),
    BitVec.extractLsb'_append_extractLsb'_eq_extractLsb' (by decide), BitVec.extractLsb'_eq_self]

/-- Settles O5: decoding such a word looks at opA, opB and, where there is one, Rd. -/
theorem dontCareBitsIgnored : Obligations.DontCareBitsIgnored := by
  intro pfx hi x y rd
  refine ⟨?fields, ?noFields⟩
  case fields =>
    rintro (⟨htop, hset⟩ | hmem)
    · rw [opcodeR2_eq_append hi, htop, hset]
      exact decode_setWord_congr pfx _ x y rd
    · simp only [List.mem_cons, List.not_mem_nil, or_false] at hmem
      obtain rfl | rfl | rfl | rfl := hmem
      · exact decode_wordR2_opB4_congr pfx 0b000 x y rd
      · exact decode_wordR2_opB4_congr pfx 0b001 x y rd
      · exact decode_wordR2_opB4_congr pfx 0b010 x y rd
      · exact decode_wordR2_opB4_congr pfx 0b011 x y rd
  case noFields =>
    intro hmem z
    simp only [List.mem_cons, List.not_mem_nil, or_false] at hmem
    obtain rfl | rfl | rfl | rfl | rfl := hmem
    · exact decode_wordR2_opB6_congr pfx 0b000 x y rd z
    · exact decode_wordR2_opB6_congr pfx 0b001 x y rd z
    · exact decode_wordR2_opB6_congr pfx 0b010 x y rd z
    · exact decode_wordR2_opB6_congr pfx 0b011 x y rd z
    · exact decode_wordR2_opB6_congr pfx 0b100 x y rd z

end Sys2Proof.Machine
end

section
/-! PROOFS. The rows of the opcode table (spec/30_encoding.md, opening, and R95): they exclude each other,
and the decode tree of R87 leads every word to an instruction whose row it fits. -/

namespace Sys2Proof.Machine

/-! ### The rows exclude each other -/

/-- No word fits two rows: two of them differ in a bit that both masks keep. -/
theorem opcodeRows_pairwise : opcodeRows.Pairwise fun r q => r.fit &&& q.mask ≠ q.fit &&& r.mask := by
  decide

theorem eq_of_fits {w : Word} {r q : OpcodeRow} (hr : r ∈ opcodeRows) (hq : q ∈ opcodeRows)
    (hrfit : w &&& r.mask = r.fit) (hqfit : w &&& q.mask = q.fit) : r = q := by
  by_contra hne
  have hsymm : Std.Symm fun r q : OpcodeRow => r.fit &&& q.mask ≠ q.fit &&& r.mask :=
    ⟨fun _ _ h => h.symm⟩
  refine opcodeRows_pairwise.forall hr hq hne ?_
  rw [← hrfit, ← hqfit, BitVec.and_assoc, BitVec.and_assoc, BitVec.and_comm r.mask]

/-! ### The row of a decoded word -/

/-- A mask of `len` ones from bit `st` on keeps the field there. -/
theorem and_fieldMask (w : Word) (st len : Nat) :
    w &&& ((BitVec.allOnes len).setWidth 16 <<< st) = (w.extractLsb' st len).setWidth 16 <<< st := by
  ext i hi
  simp only [BitVec.getElem_and, BitVec.getElem_shiftLeft, BitVec.getElem_setWidth, BitVec.getLsbD_allOnes,
    BitVec.getLsbD_extractLsb']
  by_cases h : i < st
  · simp [h]
  · simp [h, BitVec.getLsbD_eq_getElem hi, Nat.add_sub_cancel' (Nat.le_of_not_lt h), Bool.and_comm]

/-- The word fits a row with the name of the instruction. -/
def Fits (w : Word) (i : Instr) : Prop :=
  ∃ row ∈ opcodeRows, row.name = i.mnemonic ∧ w &&& row.mask = row.fit

/-- By the position of the row in the table. -/
theorem fits_of_row {w : Word} {i : Instr} {row : OpcodeRow} (n : Nat) (hrow : opcodeRows[n]? = some row)
    (hname : row.name = i.mnemonic) (hfit : w &&& row.mask = row.fit) : Fits w i :=
  ⟨row, List.mem_of_getElem? hrow, hname, hfit⟩

section
variable (w : Word)

theorem extractLsb'_append_11_3 : w.extractLsb' 14 2 ++ w.extractLsb' 11 3 = w.extractLsb' 11 5 :=
  BitVec.extractLsb'_append_extractLsb'_eq_extractLsb' (by decide)

theorem extractLsb'_append_9_4 : w.extractLsb' 13 3 ++ w.extractLsb' 9 4 = w.extractLsb' 9 7 :=
  BitVec.extractLsb'_append_extractLsb'_eq_extractLsb' (by decide)

theorem extractLsb'_append_6_3 :
    w.extractLsb' 12 4 ++ w.extractLsb' 9 3 ++ w.extractLsb' 6 3 = w.extractLsb' 6 10 := by
  rw [BitVec.extractLsb'_append_extractLsb'_eq_extractLsb' (by decide),
    BitVec.extractLsb'_append_extractLsb'_eq_extractLsb' (by decide)]

/-- The mask of formats P, I1 and I2, by the fields of format I1. -/
theorem and_mask_F800 :
    w &&& 0xF800 = (w.extractLsb' 14 2 ++ w.extractLsb' 11 3).setWidth 16 <<< 11 := by
  rw [extractLsb'_append_11_3]
  exact and_fieldMask w 11 5

/-- The mask of format R1. -/
theorem and_mask_FE00 :
    w &&& 0xFE00 = (w.extractLsb' 13 3 ++ w.extractLsb' 9 4).setWidth 16 <<< 9 := by
  rw [extractLsb'_append_9_4]
  exact and_fieldMask w 9 7

/-- The mask of format R2. -/
theorem and_mask_FFC0 :
    w &&& 0xFFC0 = (w.extractLsb' 12 4 ++ w.extractLsb' 9 3 ++ w.extractLsb' 6 3).setWidth 16 <<< 6 := by
  rw [extractLsb'_append_6_3]
  exact and_fieldMask w 6 10

/-- The mask of `set%cc` and of the Reserved rows of format R2 that leave opA open. -/
theorem and_mask_F1C0 :
    w &&& 0xF1C0 = (w.extractLsb' 12 4).setWidth 16 <<< 12 ||| (w.extractLsb' 6 3).setWidth 16 <<< 6 := by
  rw [← and_fieldMask, ← and_fieldMask, ← BitVec.and_or_distrib_left]
  rfl

end

theorem bitVec3_cases (x : BitVec 3) :
    x = 0 ∨ x = 1 ∨ x = 2 ∨ x = 3 ∨ x = 4 ∨ x = 5 ∨ x = 6 ∨ x = 7 := by
  revert x
  decide

theorem bitVec4_cases (x : BitVec 4) :
    x = 0 ∨ x = 1 ∨ x = 2 ∨ x = 3 ∨ x = 4 ∨ x = 5 ∨ x = 6 ∨ x = 7 ∨
    x = 8 ∨ x = 9 ∨ x = 10 ∨ x = 11 ∨ x = 12 ∨ x = 13 ∨ x = 14 ∨ x = 15 := by
  revert x
  decide

/-! The leaves below follow the cases of each decoding function, in its order. -/

section
variable {w : Word}

theorem fits_decodeI1 (htop : w.extractLsb' 14 2 = 0b01#2) : Fits w (decodeI1 w) := by
  have hfit := and_mask_F800 w
  rw [htop] at hfit
  obtain h3 | h3 | h3 | h3 | h3 | h3 | h3 | h3 := bitVec3_cases (w.extractLsb' 11 3) <;>
    rw [h3] at hfit <;> rw [decodeI1, h3]
  · exact fits_of_row 2 rfl rfl hfit
  · exact fits_of_row 3 rfl rfl hfit
  · exact fits_of_row 4 rfl rfl hfit
  · exact fits_of_row 5 rfl rfl hfit
  · exact fits_of_row 6 rfl rfl hfit
  · exact fits_of_row 7 rfl rfl hfit
  · exact fits_of_row 8 rfl rfl hfit
  · exact fits_of_row 9 rfl rfl hfit

theorem fits_decodeP (htop : w.extractLsb' 12 4 = 0b1111#4) : Fits w (decodeP w) := by
  have hbit : w.extractLsb' 11 1 = 0b0#1 ∨ w.extractLsb' 11 1 = 0b1#1 := by
    generalize w.extractLsb' 11 1 = x
    revert x
    decide
  have hfit : w &&& 0xF800 = (w.extractLsb' 12 4 ++ w.extractLsb' 11 1).setWidth 16 <<< 11 := by
    rw [BitVec.extractLsb'_append_extractLsb'_eq_extractLsb' (by decide)]
    exact and_fieldMask w 11 5
  rw [htop] at hfit
  obtain h | h := hbit <;> rw [h] at hfit <;> rw [decodeP, h]
  · exact fits_of_row 0 rfl rfl hfit
  · exact fits_of_row 1 rfl rfl hfit

/-- The opcodes of format I2, 10000 to 11011. -/
theorem opcodeI2_cases (op : BitVec 5) (h : 8 ≤ op.extractLsb' 1 4) (h' : op.extractLsb' 1 4 ≤ 13) :
    op = 16 ∨ op = 17 ∨ op = 18 ∨ op = 19 ∨ op = 20 ∨ op = 21 ∨ op = 22 ∨ op = 23 ∨ op = 24 ∨ op = 25 ∨
      op = 26 ∨ op = 27 := by
  revert op
  decide

theorem fits_decodeI2 (h : 8 ≤ w.extractLsb' 12 4) (h' : w.extractLsb' 12 4 ≤ 13) : Fits w (decodeI2 w) := by
  have hfit : w &&& 0xF800 = (w.extractLsb' 11 5).setWidth 16 <<< 11 := and_fieldMask w 11 5
  have htop : (w.extractLsb' 11 5).extractLsb' 1 4 = w.extractLsb' 12 4 :=
    extractLsb'_extractLsb' w (by decide)
  rw [← htop] at h h'
  obtain hop | hop | hop | hop | hop | hop | hop | hop | hop | hop | hop | hop :=
    opcodeI2_cases (w.extractLsb' 11 5) h h' <;> rw [hop] at hfit <;> rw [decodeI2, hop]
  · exact fits_of_row 10 rfl rfl hfit
  · exact fits_of_row 11 rfl rfl hfit
  · exact fits_of_row 12 rfl rfl hfit
  · exact fits_of_row 13 rfl rfl hfit
  · exact fits_of_row 14 rfl rfl hfit
  · exact fits_of_row 15 rfl rfl hfit
  · exact fits_of_row 16 rfl rfl hfit
  · exact fits_of_row 17 rfl rfl hfit
  · exact fits_of_row 18 rfl rfl hfit
  · exact fits_of_row 19 rfl rfl hfit
  · exact fits_of_row 20 rfl rfl hfit
  · exact fits_of_row 21 rfl rfl hfit

theorem fits_decodeR1 (htop : w.extractLsb' 13 3 = 0b001#3) : Fits w (decodeR1 w) := by
  have hfit := and_mask_FE00 w
  rw [htop] at hfit
  obtain h4 | h4 | h4 | h4 | h4 | h4 | h4 | h4 | h4 | h4 | h4 | h4 | h4 | h4 | h4 | h4 :=
    bitVec4_cases (w.extractLsb' 9 4) <;> rw [h4] at hfit <;> rw [decodeR1, h4]
  · exact fits_of_row 25 rfl rfl hfit
  · exact fits_of_row 26 rfl rfl hfit
  · exact fits_of_row 27 rfl rfl hfit
  · exact fits_of_row 28 rfl rfl hfit
  · exact fits_of_row 29 rfl rfl hfit
  · exact fits_of_row 30 rfl rfl hfit
  · exact fits_of_row 31 rfl rfl hfit
  · exact fits_of_row 32 rfl rfl hfit
  · exact fits_of_row 33 rfl rfl hfit
  · exact fits_of_row 34 rfl rfl hfit
  · exact fits_of_row 35 rfl rfl hfit
  · exact fits_of_row 36 rfl rfl hfit
  · exact fits_of_row 37 rfl rfl hfit
  · exact fits_of_row 38 rfl rfl hfit
  · exact fits_of_row 23 rfl rfl hfit
  · exact fits_of_row 24 rfl rfl hfit

theorem fits_decodeR2opB0 (htop : w.extractLsb' 12 4 = 0b0000#4) (hB : w.extractLsb' 6 3 = 0b000#3) :
    Fits w (decodeR2opB0 w) := by
  have hfit := and_mask_FFC0 w
  rw [htop, hB] at hfit
  obtain h3 | h3 | h3 | h3 | h3 | h3 | h3 | h3 := bitVec3_cases (w.extractLsb' 9 3) <;>
    rw [h3] at hfit <;> rw [decodeR2opB0, h3]
  · exact fits_of_row 41 rfl rfl hfit
  · exact fits_of_row 42 rfl rfl hfit
  · exact fits_of_row 43 rfl rfl hfit
  · exact fits_of_row 44 rfl rfl hfit
  · exact fits_of_row 45 rfl rfl hfit
  · exact fits_of_row 46 rfl rfl hfit
  · exact fits_of_row 47 rfl rfl hfit
  · exact fits_of_row 48 rfl rfl hfit

theorem fits_decodeR2opB1 (htop : w.extractLsb' 12 4 = 0b0000#4) (hB : w.extractLsb' 6 3 = 0b001#3) :
    Fits w (decodeR2opB1 w) := by
  have hfit := and_mask_FFC0 w
  rw [htop, hB] at hfit
  obtain h3 | h3 | h3 | h3 | h3 | h3 | h3 | h3 := bitVec3_cases (w.extractLsb' 9 3) <;>
    rw [h3] at hfit <;> rw [decodeR2opB1, h3]
  · exact fits_of_row 49 rfl rfl hfit
  · exact fits_of_row 50 rfl rfl hfit
  · exact fits_of_row 51 rfl rfl hfit
  · exact fits_of_row 52 rfl rfl hfit
  · exact fits_of_row 53 rfl rfl hfit
  · exact fits_of_row 54 rfl rfl hfit
  · exact fits_of_row 55 rfl rfl hfit
  · exact fits_of_row 56 rfl rfl hfit

theorem fits_decodeR2opB4 (htop : w.extractLsb' 12 4 = 0b0000#4) (hB : w.extractLsb' 6 3 = 0b100#3) :
    Fits w (decodeR2opB4 w) := by
  have hfit := and_mask_FFC0 w
  rw [htop, hB] at hfit
  obtain h3 | h3 | h3 | h3 | h3 | h3 | h3 | h3 := bitVec3_cases (w.extractLsb' 9 3) <;>
    rw [h3] at hfit <;> rw [decodeR2opB4, h3]
  · exact fits_of_row 57 rfl rfl hfit
  · exact fits_of_row 58 rfl rfl hfit
  · exact fits_of_row 59 rfl rfl hfit
  · exact fits_of_row 60 rfl rfl hfit
  · exact fits_of_row 61 rfl rfl hfit
  · exact fits_of_row 62 rfl rfl hfit
  · exact fits_of_row 63 rfl rfl hfit
  · exact fits_of_row 64 rfl rfl hfit

theorem fits_decodeR2opB6 (htop : w.extractLsb' 12 4 = 0b0000#4) (hB : w.extractLsb' 6 3 = 0b110#3) :
    Fits w (decodeR2opB6 w) := by
  have hfit := and_mask_FFC0 w
  rw [htop, hB] at hfit
  obtain h3 | h3 | h3 | h3 | h3 | h3 | h3 | h3 := bitVec3_cases (w.extractLsb' 9 3) <;>
    rw [h3] at hfit <;> rw [decodeR2opB6, h3]
  · exact fits_of_row 65 rfl rfl hfit
  · exact fits_of_row 66 rfl rfl hfit
  · exact fits_of_row 67 rfl rfl hfit
  · exact fits_of_row 68 rfl rfl hfit
  · exact fits_of_row 69 rfl rfl hfit
  · exact fits_of_row 70 rfl rfl hfit
  · exact fits_of_row 71 rfl rfl hfit
  · exact fits_of_row 72 rfl rfl hfit

theorem fits_decodeR2 (htop : w.extractLsb' 12 4 = 0b0000#4) : Fits w (decodeR2 w) := by
  have hfit := and_mask_F1C0 w
  rw [htop] at hfit
  obtain hB | hB | hB | hB | hB | hB | hB | hB := bitVec3_cases (w.extractLsb' 6 3) <;>
    rw [hB] at hfit <;> rw [decodeR2, hB]
  · exact fits_decodeR2opB0 htop hB
  · exact fits_decodeR2opB1 htop hB
  · exact fits_of_row 73 rfl rfl hfit
  · exact fits_of_row 74 rfl rfl hfit
  · exact fits_decodeR2opB4 htop hB
  · exact fits_of_row 75 rfl rfl hfit
  · exact fits_decodeR2opB6 htop hB
  · exact fits_of_row 40 rfl rfl hfit

end

/-- The decode tree of R87 on bits 15:12. -/
theorem fits_decodePlain (w : Word) : Fits w (decodePlain w) := by
  have hfit : w &&& 0xF000 = (w.extractLsb' 12 4).setWidth 16 <<< 12 := and_fieldMask w 12 4
  have htwo : w.extractLsb' 14 2 = (w.extractLsb' 12 4).extractLsb' 2 2 := by
    rw [extractLsb'_extractLsb' w (by decide)]
  have hthree : w.extractLsb' 13 3 = (w.extractLsb' 12 4).extractLsb' 1 3 := by
    rw [extractLsb'_extractLsb' w (by decide)]
  obtain h | h | h | h | h | h | h | h | h | h | h | h | h | h | h | h := bitVec4_cases (w.extractLsb' 12 4) <;>
    rw [h] at hfit htwo hthree <;> rw [decodePlain, h]
  · exact fits_decodeR2 h
  · exact fits_of_row 39 rfl rfl hfit
  · exact fits_decodeR1 hthree
  · exact fits_decodeR1 hthree
  · exact fits_decodeI1 htwo
  · exact fits_decodeI1 htwo
  · exact fits_decodeI1 htwo
  · exact fits_decodeI1 htwo
  · exact fits_decodeI2 (by rw [h]; decide) (by rw [h]; decide)
  · exact fits_decodeI2 (by rw [h]; decide) (by rw [h]; decide)
  · exact fits_decodeI2 (by rw [h]; decide) (by rw [h]; decide)
  · exact fits_decodeI2 (by rw [h]; decide) (by rw [h]; decide)
  · exact fits_decodeI2 (by rw [h]; decide) (by rw [h]; decide)
  · exact fits_decodeI2 (by rw [h]; decide) (by rw [h]; decide)
  · exact fits_of_row 22 rfl rfl hfit
  · exact fits_decodeP h

/-! ### What a pending prefix changes -/

theorem decodePlain_eq_decodeI1 {w : Word} (htop : w.extractLsb' 14 2 = 0b01#2) : decodePlain w = decodeI1 w := by
  have hfour : ∀ x : BitVec 4, x.extractLsb' 2 2 = 0b01#2 → x = 4 ∨ x = 5 ∨ x = 6 ∨ x = 7 := by decide
  have htwo : (w.extractLsb' 12 4).extractLsb' 2 2 = 0b01#2 := by
    rw [extractLsb'_extractLsb' w (by decide), htop]
  obtain h | h | h | h := hfour _ htwo <;> rw [decodePlain, h] <;> rfl

/-- Under `pfixz_k` only the five loads and stores of format I1 are other instructions. -/
theorem decodeAbsolute_eq_decodeI1 {w : Word} (p : BitVec 11) (htop : w.extractLsb' 14 2 = 0b01#2)
    (h : w.extractLsb' 11 5 ∉ [0b01001#5, 0b01010#5, 0b01011#5, 0b01100#5, 0b01101#5]) :
    decodeAbsolute p w = decodeI1 w := by
  rw [← extractLsb'_append_11_3, htop] at h
  obtain h3 | h3 | h3 | h3 | h3 | h3 | h3 | h3 := bitVec3_cases (w.extractLsb' 11 3)
  · rw [decodeAbsolute, h3]; rfl
  · exact absurd (by rw [h3]; decide) h
  · exact absurd (by rw [h3]; decide) h
  · exact absurd (by rw [h3]; decide) h
  · exact absurd (by rw [h3]; decide) h
  · exact absurd (by rw [h3]; decide) h
  · rw [decodeAbsolute, h3]; rfl
  · rw [decodeAbsolute, h3]; rfl

/-- Settles O4: the decode tree leads to a row, no other row fits, and a prefix changes only the loads and
stores of format I1 under `pfixz_k`. -/
theorem wordsFallInOneRow : Obligations.WordsFallInOneRow := by
  refine ⟨fun w => ?row, fun pfx w h => ?pending⟩
  case row =>
    obtain ⟨row, hrow, hname, hfit⟩ := fits_decodePlain w
    exact ⟨row, hrow, hname, fun other hother =>
      ⟨fun h => eq_of_fits hother hrow h hfit, fun h => by rw [h]; exact hfit⟩⟩
  case pending =>
    by_cases htop : w.extractLsb' 14 2 = 0b01#2
    case neg => exact decode_eq_decodePlain pfx htop
    case pos =>
      match pfx with
      | none => rfl
      | some ⟨false, p⟩ => rfl
      | some ⟨true, p⟩ =>
        have hop := h.resolve_left fun hne => hne p rfl
        rw [decode_zeroing_eq_decodeAbsolute p htop, decodeAbsolute_eq_decodeI1 p htop hop,
          ← decodePlain_eq_decodeI1 htop]
        rfl

end Sys2Proof.Machine
end

section
/-! PROOFS. Operands that are admitted, in the terms of the statements (spec/40_prefix.md R122 to R125), and
the instructions that only compute: arithmetic, logic, compares, address sums, moves. -/

namespace Sys2Proof.Machine

open Sys2Proof.Claim

/-! ### Immediates -/

/-- The immediate is the prefix over the low five bits of the field (40_prefix.md R122, decision D1). -/
theorem imm16_eq_append_setWidth (p : BitVec 11) (field : Word) : imm16 p field = p ++ field.setWidth 5 := by
  have hmask : field &&& ((1#16 <<< Config.pfixShift) - 1) = (field.setWidth 5).setWidth 16 :=
    and_fiveBitMask field
  rw [imm16, hmask, append_eq_shiftLeft_or]
  rfl

/-- Settles O7: the definition in the spec's arithmetic, and the concatenation that it makes. -/
theorem immediateComposition : Obligations.ImmediateComposition := fun p field =>
  ⟨rfl, (imm16_eq_append_setWidth p field).trans
    (congrArg (p ++ ·) (BitVec.setWidth_eq_extractLsb' (by decide)))⟩

section
variable (s : State)

theorem immediate_eq_imm {n : Nat} (plain : Word) (k : BitVec n) :
    s.immediate plain (k.setWidth 16) = imm s plain k := by
  unfold State.immediate imm
  cases s.pfx with
  | none => rfl
  | some p =>
    change imm16 p.imm (k.setWidth 16) = p.imm ++ k.setWidth 5
    rw [imm16_eq_append_setWidth, BitVec.setWidth_setWidth_of_le k (by decide)]

theorem imm5_eq_imm (k : BitVec 5) : s.imm5 k = imm s (k.setWidth 16) k := immediate_eq_imm s _ k

theorem imm8z_eq_imm (k : BitVec 8) : s.imm8z k = imm s (k.setWidth 16) k := immediate_eq_imm s _ k

theorem imm8s_eq_imm (k : BitVec 8) : s.imm8s k = imm s (k.signExtend 16) k := immediate_eq_imm s _ k

theorem branchTarget_eq_target (a : BitVec 9) : s.branchTarget a = target s a := by
  rw [State.branchTarget, State.offset9, immediate_eq_imm, target]
  cases s.params.brBase <;> rfl

end

/-! ### Operands that are admitted -/

theorem extendable_iff {s : State} : Extendable s ↔ s.zeroing = false := by
  rw [← Bool.not_eq_true, zeroing_eq_true, not_exists]
  rfl

theorem rsValue_of_r1Base {s : State} {rs : RegField} {v : Word} (h : R1Base s rs v) :
    (s.pfx = none ∨ s.zeroing = true) ∧ s.rsValue rs = .ok v := by
  obtain ⟨hnone, hreg⟩ | ⟨p, hp, rfl⟩ := h
  · exact ⟨.inl hnone, rsValue_eq_ok.2 (.inr ⟨zeroing_none hnone, hreg⟩)⟩
  · have hzero := zeroing_eq_true.2 ⟨p, hp⟩
    exact ⟨.inr hzero, rsValue_eq_ok.2 (.inl ⟨hzero, rfl⟩)⟩

theorem rsValue_of_i1Base {s : State} {rs : RegField} {v : Word} (h : I1Base s rs v) :
    s.rsValue rs = .ok v := by
  obtain ⟨hext, hreg⟩ | ⟨p, hp, rfl⟩ := h
  · exact rsValue_eq_ok.2 (.inr ⟨extendable_iff.1 hext, hreg⟩)
  · exact rsValue_eq_ok.2 (.inl ⟨zeroing_eq_true.2 ⟨p, hp⟩, rfl⟩)

section
variable {s : State} (d : Reg)

theorem readForm_i1 {rs : RegField} {b : Word} (h : I1Base s rs b) (k : BitVec 5) (f : Word → Reg → Effect) :
    s.readForm (.i1 k rs (fieldOfReg d) f) = .ok (f (b + imm s (k.setWidth 16) k) d) := by
  rw [← imm5_eq_imm]
  exact map_eq_ok.2 ⟨_, operandsI1_eq_ok.2 ⟨b, d, rsValue_of_i1Base h, rfl, rfl⟩, rfl⟩

theorem readForm_i2 (h : Extendable s) (f : Reg → Effect) :
    s.readForm (.i2 (fieldOfReg d) f) = .ok (f d) :=
  map_eq_ok.2 ⟨d, operandsI2_eq_ok.2 ⟨extendable_iff.1 h, rfl⟩, rfl⟩

theorem readForm_j (h : Extendable s) (e : Effect) : s.readForm (.j e) = .ok e :=
  map_eq_ok.2 ⟨(), checkExtendable_eq_ok.2 (extendable_iff.1 h), rfl⟩

theorem readForm_r1 {rs : RegField} {a : Word} (h : R1Base s rs a) (n : Reg)
    (f : Word → Word → Reg → Effect) :
    s.readForm (.r1 (fieldOfReg n) rs (fieldOfReg d) f) = .ok (f a (s.regs.get n) d) := by
  obtain ⟨hpfx, hrs⟩ := rsValue_of_r1Base h
  exact map_eq_ok.2 ⟨_, operandsR1_eq_ok.2 ⟨hpfx, a, n, d, hrs, rfl, rfl, rfl⟩, rfl⟩

theorem readForm_r2 (h : s.pfx = none) (r : Reg) (f : Word → Reg → Effect) :
    s.readForm (.r2 (fieldOfReg r) (fieldOfReg d) f) = .ok (f (s.regs.get r) d) :=
  map_eq_ok.2 ⟨_, operandsR2_eq_ok.2 ⟨h, r, d, rfl, rfl, rfl⟩, rfl⟩

end

/-! ### Results of the adder -/

section
variable (st : Status) (s : State) (d : Reg) (a b : Word)

theorem setSRArith_eq_compared (o : AddOut) : st.setSRArith o = compared st o.res o.carry o.ovf := by
  rw [Status.setSRArith, BitVec.msb_eq_toInt]
  rfl

theorem writeBackArith_eq_wroteSum (o : AddOut) :
    s.writeBackArith d o = wroteSum s d o.res o.carry o.ovf := by
  rw [State.writeBackArith, setSRArith_eq_compared]
  rfl

theorem compareDone_eq (o : AddOut) : s.compareDone o =
    { s with status := compared s.status o.res o.carry o.ovf, pc := s.pc + 1, pfx := none } := by
  rw [State.compareDone, setSRArith_eq_compared]
  rfl

theorem perform_writeArith_addC (cin : Bool) : s.perform (.writeArith d (addC a b cin)) =
    wroteSum s d (a + (b + BitVec.ofNat 16 cin.toNat)) (decide (65536 ≤ a.toNat + b.toNat + cin.toNat))
      (overflows (a.toInt + b.toInt + cin.toNat)) := by
  rw [← BitVec.add_assoc, ← addC_res, ← addC_carry, overflows, ← addC_ovf]
  exact writeBackArith_eq_wroteSum ..

theorem perform_writeArith_subBorrowC (ac : Bool) : s.perform (.writeArith d (subBorrowC a b ac)) =
    wroteSum s d (a - (b + BitVec.ofNat 16 (!ac).toNat)) (decide (b.toNat + (!ac).toNat ≤ a.toNat))
      (overflows (a.toInt - b.toInt - (!ac).toNat)) := by
  rw [← BitVec.sub_sub, ← subBorrowC_res, ← subBorrowC_carry, overflows, ← subBorrowC_ovf]
  exact writeBackArith_eq_wroteSum ..

theorem perform_writeArith_add : s.perform (.writeArith d (addC a b false)) =
    wroteSum s d (a + b) (decide (65536 ≤ a.toNat + b.toNat)) (overflows (a.toInt + b.toInt)) := by
  simpa using perform_writeArith_addC s d a b false

theorem perform_writeArith_sub : s.perform (.writeArith d (subC a b)) =
    wroteSum s d (a - b) (decide (b.toNat ≤ a.toNat)) (overflows (a.toInt - b.toInt)) := by
  rw [subC_eq]
  simpa using perform_writeArith_subBorrowC s d a b true

theorem perform_compare_sub : s.perform (.compare (subC a b)) =
    { s with status := compared s.status (a - b) (decide (b.toNat ≤ a.toNat))
               (overflows (a.toInt - b.toInt)), pc := s.pc + 1, pfx := none } := by
  have hres : (subC a b).res = a - b := by simp [subC_eq, subBorrowC_res]
  have hcarry : (subC a b).carry = decide (b.toNat ≤ a.toNat) := by simp [subC_eq, subBorrowC_carry]
  have hovf : (subC a b).ovf = overflows (a.toInt - b.toInt) := by simp [subC_eq, subBorrowC_ovf, overflows]
  rw [← hres, ← hcarry, ← hovf]
  exact compareDone_eq ..

end

/-- Settles O11: the plan of each, and the adder over exact integers. -/
theorem immediateArithmetic : Obligations.ImmediateArithmetic := by
  intro s k d hext
  simp only [← imm8z_eq_imm, ← perform_writeArith_add, ← perform_writeArith_sub]
  exact ⟨exec_of_plan (readForm_i2 d hext _) rfl, exec_of_plan (readForm_i2 d hext _) rfl⟩

/-- Settles O12: as for O11, the carry or borrow from AC. -/
theorem threeRegisterArithmetic : Obligations.ThreeRegisterArithmetic := by
  intro s rs n d a hbase
  simp only [← perform_writeArith_add, ← perform_writeArith_addC, ← perform_writeArith_sub,
    ← perform_writeArith_subBorrowC]
  exact ⟨exec_of_plan (readForm_r1 d hbase n _) rfl, exec_of_plan (readForm_r1 d hbase n _) rfl,
    exec_of_plan (readForm_r1 d hbase n _) rfl, exec_of_plan (readForm_r1 d hbase n _) rfl⟩

/-- 0 - v overflows for the most negative number only. -/
theorem overflows_neg (v : Word) : overflows ((0 : Word).toInt - v.toInt) = decide (v = 0x8000) := by
  have hlt := v.isLt
  have hzero : (0 : Word).toInt = 0 := rfl
  have hmin : (0x8000 : Word).toNat = 32768 := rfl
  rw [overflows, decide_eq_decide, BitVec.toInt_eq_toNat_cond v, ← BitVec.toNat_inj, hzero, hmin]
  omega

/-- Settles O13: `neg` is the subtraction from 0. -/
theorem negate : Obligations.Negate := by
  intro s r d hnone
  have hcarry : decide ((s.regs.get r).toNat ≤ (0 : Word).toNat) = decide (s.regs.get r = 0) := by
    simp [← BitVec.toNat_inj]
  rw [exec_of_plan (i := .negRr _ _) (readForm_r2 d hnone r _) rfl, perform_writeArith_sub, hcarry,
    overflows_neg]
  exact congrArg (fun v => Host.Outcome.next (wroteSum s d v _ _)) (zero_sub _)

end Sys2Proof.Machine
end

section
/-! PROOFS. The instructions that only compute, continued: the chain through AC, logic, compares and what
they tell the conditions, the sums and moves that write no flag. -/

namespace Sys2Proof.Machine

open Sys2Proof.Claim

/-! ### Two words as one number (41_arith_logic.md R163) -/

section
variable (x1 x0 y1 y0 : Word)

theorem toNat_append_words : (x1 ++ x0).toNat = x1.toNat * 65536 + x0.toNat := by
  rw [BitVec.toNat_append, ← Nat.shiftLeft_add_eq_or_of_lt x0.isLt, Nat.shiftLeft_eq]

/-- A carry or a borrow as a word is 0 or 1. -/
theorem toNat_ofNat_bool (c : Bool) : (BitVec.ofNat 16 c.toNat).toNat = c.toNat := by
  cases c <;> rfl

theorem append_add_carry :
    (x1 + (y1 + BitVec.ofNat 16 (decide (65536 ≤ x0.toNat + y0.toNat)).toNat)) ++ (x0 + y0) =
      (x1 ++ x0) + (y1 ++ y0) := by
  have h1 := x1.isLt
  have h0 := x0.isLt
  have g1 := y1.isLt
  have g0 := y0.isLt
  rw [← BitVec.toNat_inj]
  simp only [BitVec.toNat_add, toNat_append_words, toNat_ofNat_bool]
  by_cases hcarry : 65536 ≤ x0.toNat + y0.toNat <;> simp only [hcarry, decide_true, decide_false,
    Bool.toNat_true, Bool.toNat_false] <;> omega

theorem carry_append :
    decide (65536 ≤ x1.toNat + y1.toNat + (decide (65536 ≤ x0.toNat + y0.toNat)).toNat) =
      decide (2 ^ 32 ≤ (x1 ++ x0).toNat + (y1 ++ y0).toNat) := by
  have h0 := x0.isLt
  have g0 := y0.isLt
  rw [decide_eq_decide, toNat_append_words, toNat_append_words]
  by_cases hcarry : 65536 ≤ x0.toNat + y0.toNat <;> simp only [hcarry, decide_true, decide_false,
    Bool.toNat_true, Bool.toNat_false] <;> omega

theorem append_sub_borrow :
    (x1 - (y1 + BitVec.ofNat 16 (!decide (y0.toNat ≤ x0.toNat)).toNat)) ++ (x0 - y0) =
      (x1 ++ x0) - (y1 ++ y0) := by
  have h1 := x1.isLt
  have h0 := x0.isLt
  have g1 := y1.isLt
  have g0 := y0.isLt
  rw [← BitVec.toNat_inj]
  simp only [BitVec.toNat_sub, BitVec.toNat_add, toNat_append_words, toNat_ofNat_bool]
  by_cases hfits : y0.toNat ≤ x0.toNat <;> simp only [hfits, decide_true, decide_false, Bool.not_true,
    Bool.not_false, Bool.toNat_true, Bool.toNat_false] <;> omega

theorem borrow_append :
    decide (y1.toNat + (!decide (y0.toNat ≤ x0.toNat)).toNat ≤ x1.toNat) =
      decide ((y1 ++ y0).toNat ≤ (x1 ++ x0).toNat) := by
  have h0 := x0.isLt
  have g0 := y0.isLt
  rw [decide_eq_decide, toNat_append_words, toNat_append_words]
  by_cases hfits : y0.toNat ≤ x0.toNat <;> simp only [hfits, decide_true, decide_false, Bool.not_true,
    Bool.not_false, Bool.toNat_true, Bool.toNat_false] <;> omega

end

/-- A register that is not the destination of a sum reads as before. -/
theorem wroteSum_get_ne (s : State) {d r : Reg} (h : d ≠ r) (v : Word) (carry ovf : Bool) :
    (wroteSum s d v carry ovf).regs.get r = s.regs.get r :=
  Regs.get_set_ne _ _ h.symm

theorem wroteSum_get_same (s : State) (d : Reg) (v : Word) (carry ovf : Bool) :
    (wroteSum s d v carry ovf).regs.get d = v :=
  Regs.get_set_same ..

/-- A register read through Rs with no prefix pending. -/
theorem r1Base_of_unprefixed {s : State} (h : s.pfx = none) (r : Reg) :
    R1Base s (fieldOfReg r) (s.regs.get r) :=
  .inl ⟨h, r, rfl, rfl⟩

/-- Settles O14: the second instruction reads the carry or borrow of the first from AC and its two
sources as they were. -/
theorem multiWordChain : Obligations.MultiWordChain := by
  intro s a0 b0 a1 b1 d0 d1 hnone ha1 hb1 hd1
  refine ⟨?sum, ?difference⟩
  case sum =>
    obtain ⟨hlow, -⟩ := threeRegisterArithmetic s _ b0 d0 _ (r1Base_of_unprefixed hnone a0)
    obtain ⟨-, hhigh, -⟩ :=
      threeRegisterArithmetic _ _ b1 d1 _ (r1Base_of_unprefixed (s := wroteSum s d0 _ _ _) rfl a1)
    refine ⟨_, _, hlow, hhigh, ?_, ?_⟩
    · rw [wroteSum_get_same, wroteSum_get_ne _ hd1.symm, wroteSum_get_same, wroteSum_get_ne _ ha1,
        wroteSum_get_ne _ hb1]
      exact append_add_carry ..
    · rw [wroteSum_get_ne _ ha1, wroteSum_get_ne _ hb1]
      exact carry_append ..
  case difference =>
    obtain ⟨-, -, hlow, -⟩ := threeRegisterArithmetic s _ b0 d0 _ (r1Base_of_unprefixed hnone a0)
    obtain ⟨-, -, -, hhigh⟩ :=
      threeRegisterArithmetic _ _ b1 d1 _ (r1Base_of_unprefixed (s := wroteSum s d0 _ _ _) rfl a1)
    refine ⟨_, _, hlow, hhigh, ?_, ?_⟩
    · rw [wroteSum_get_same, wroteSum_get_ne _ hd1.symm, wroteSum_get_same, wroteSum_get_ne _ ha1,
        wroteSum_get_ne _ hb1]
      exact append_sub_borrow ..
    · rw [wroteSum_get_ne _ ha1, wroteSum_get_ne _ hb1]
      exact borrow_append ..

/-! ### Logic -/

theorem wroteLogic_of_plan {s : State} {i : Instr} {d : Reg} {v : Word}
    (h : s.plan i = .ok (.writeLogic d v)) : WroteLogic (exec i s) s d v := by
  refine ⟨Config.drawC s.draws, Config.drawV s.draws, ?_⟩
  rw [exec_of_plan h rfl, ← BitVec.msb_eq_toInt]
  rfl

/-- Settles O15: the plan of each is a logic result. -/
theorem logicInstructions : Obligations.LogicInstructions := by
  refine ⟨fun s k d hext => ?_, fun s rs n d a hbase => ?_, fun s r d hnone => ?_⟩
  · simp only [← imm8z_eq_imm]
    exact ⟨wroteLogic_of_plan (readForm_i2 d hext _), wroteLogic_of_plan (readForm_i2 d hext _)⟩
  · exact ⟨wroteLogic_of_plan (readForm_r1 d hbase n _), wroteLogic_of_plan (readForm_r1 d hbase n _),
      wroteLogic_of_plan (readForm_r1 d hbase n _)⟩
  · exact wroteLogic_of_plan (readForm_r2 d hnone r _)

/-! ### Compares -/

/-- Settles O17: a compare is the subtraction that writes SR only. -/
theorem compares : Obligations.Compares := by
  refine ⟨fun s k d hext => ?_, fun s r d hnone => ?_⟩
  · simp only [← imm8s_eq_imm, ← perform_compare_sub]
    exact exec_of_plan (readForm_i2 d hext _) rfl
  · simp only [← perform_compare_sub]
    exact exec_of_plan (readForm_r2 d hnone r _) rfl

section
variable (a b : Word)

/-- The sign of a difference and its overflow differ exactly if the difference is negative (10_state.md
R29). -/
theorem sign_bne_overflow :
    (decide ((a - b).toInt < 0) != overflows (a.toInt - b.toInt)) = decide (a.toInt < b.toInt) := by
  have ha := a.isLt
  have hb := b.isLt
  have hsign : ((a - b).toInt < 0) ↔
      ¬ (a.toInt - b.toInt < -32768 ∨ 32767 < a.toInt - b.toInt ↔ a.toInt < b.toInt) := by
    simp only [BitVec.toInt_eq_toNat_cond, BitVec.toNat_sub]
    omega
  rw [overflows, Bool.eq_iff_iff, bne_iff_ne, ne_eq, decide_eq_decide, decide_eq_true_iff, hsign]
  tauto

theorem sign_beq_overflow :
    (decide ((a - b).toInt < 0) == overflows (a.toInt - b.toInt)) = decide (b.toInt ≤ a.toInt) := by
  have hne := sign_bne_overflow a b
  rw [bne, Bool.not_eq_eq_eq_not] at hne
  rw [hne, ← decide_not, decide_eq_decide, Int.not_lt]

theorem sub_eq_zero_decide : decide (a - b = 0) = decide (a = b) := by
  rw [decide_eq_decide]
  exact sub_eq_zero

/-- After the compare of `a` with `b` each condition is the relation it is named for. -/
theorem formula_compared (st : Status) (cc : Cond) :
    formula (compared st (a - b) (decide (b.toNat ≤ a.toNat)) (overflows (a.toInt - b.toInt))) cc =
      relation cc a b := by
  have hword : a = b ↔ a.toNat = b.toNat := BitVec.toNat_inj.symm
  have hint : a = b ↔ a.toInt = b.toInt := BitVec.toInt_inj.symm
  cases cc with
  | eq => exact sub_eq_zero_decide a b
  | ne => simp only [formula, compared, relation, sub_eq_zero_decide, decide_not]
  | uge => rfl
  | ult => simp only [formula, compared, relation, ← decide_not, Nat.not_le]
  | ge => exact sign_beq_overflow a b
  | lt => exact sign_bne_overflow a b
  | ugt =>
    simp only [formula, compared, relation, sub_eq_zero_decide, ← decide_not, ← Bool.decide_and,
      decide_eq_decide, hword]
    omega
  | gt =>
    simp only [formula, compared, relation, sub_eq_zero_decide, sign_beq_overflow, ← decide_not,
      ← Bool.decide_and, decide_eq_decide, hint]
    omega

end

/-- Settles O18: a compare that completes had operands, and then O17 says what it wrote. -/
theorem compareThenConditions : Obligations.CompareThenConditions := by
  intro s t cc d
  obtain ⟨himmediate, hregister⟩ := compares
  refine ⟨fun r hexec => ?_, fun k hexec => ?_⟩
  · obtain ⟨e, hplan, -⟩ := exec_eq_next.1 hexec
    obtain ⟨o, ho, -⟩ := map_eq_ok.1 (show s.readForm (.r2 _ _ _) = _ from hplan)
    obtain ⟨hnone, -⟩ := operandsR2_eq_ok.1 ho
    obtain rfl := Host.Outcome.next.inj ((hregister s r d hnone).symm.trans hexec)
    rw [holds_eq_formula]
    exact formula_compared ..
  · obtain ⟨e, hplan, -⟩ := exec_eq_next.1 hexec
    obtain ⟨o, ho, -⟩ := map_eq_ok.1 (show s.readForm (.i2 _ _) = _ from hplan)
    obtain ⟨hext, -⟩ := operandsI2_eq_ok.1 ho
    obtain rfl := Host.Outcome.next.inj ((himmediate s k d (extendable_iff.2 hext)).symm.trans hexec)
    rw [holds_eq_formula]
    exact formula_compared ..

/-! ### Sums, moves and selections that write no flag -/

theorem exec_write_of_plan {s : State} {i : Instr} {d : Reg} {v : Word}
    (h : s.plan i = .ok (.write d v)) : exec i s = .next (wrote s d v) :=
  exec_of_plan h rfl

/-- Settles O19: the plan of each writes the address it computes. -/
theorem addressSums : Obligations.AddressSums := by
  refine ⟨fun s k rs d b hbase => exec_write_of_plan (readForm_i1 d hbase k _), fun s k d hext => ?_⟩
  rw [← imm8z_eq_imm]
  exact exec_write_of_plan (readForm_i2 d hext _)

/-- Settles O20: the word of format I2, the plan, and the two refusals of its operands. -/
theorem moveImmediate : Obligations.MoveImmediate := by
  refine ⟨fun k rd => ?word, fun s k d hext => ?result, fun s k rd hzero => ?zeroing,
    fun s k hext => ?seven⟩
  case word => exact congrArg (fun w : Word => [w]) ((wordI2_eq_or ..).trans (BitVec.or_assoc ..).symm)
  case result =>
    rw [← imm8s_eq_imm]
    exact exec_write_of_plan (readForm_i2 d hext _)
  case zeroing =>
    rw [extendable_iff, Bool.not_eq_false] at hzero
    exact exec_eq_refused.2 (.inl (map_eq_error.2 (operandsI2_eq_error.2 (.inl ⟨hzero, rfl⟩))))
  case seven =>
    exact exec_eq_refused.2 (.inl (map_eq_error.2 (operandsI2_eq_error.2
      (.inr ⟨extendable_iff.1 hext, rfl, rfl⟩))))

/-- Settles O21: `mov r0, r0` writes back what it read. -/
theorem nopLeavesAll : Obligations.NopLeavesAll := by
  refine ⟨rfl, fun s hnone => ?_⟩
  have hexec : exec (.movRr 0 0) s = .next (wrote s .r0 (s.regs.get .r0)) :=
    exec_write_of_plan (readForm_r2 .r0 hnone .r0 _)
  rw [hexec, wrote, Regs.set_get_same, ← hnone]

/-- Settles O22: the plan writes the operand that the condition selects; the pseudo-conditions negate the
formula and exchange the operands. -/
theorem conditionalSelect : Obligations.ConditionalSelect := by
  have hselect : ∀ (s : State) (cc : Cond) (rs : RegField) (n d : Reg) (a : Word), R1Base s rs a →
      exec (.selCrrr cc (fieldOfReg n) rs (fieldOfReg d)) s = .next
        (wrote s d (if formula s.status cc then a else s.regs.get n)) := by
    intro s cc rs n d a hbase
    rw [← holds_eq_formula]
    exact exec_write_of_plan (readForm_r1 d hbase n _)
  refine ⟨hselect, fun s a b d hnone => ⟨?ugt, ?gt⟩⟩
  case ugt =>
    rw [hselect s _ _ _ _ _ (r1Base_of_unprefixed hnone b), formula]
    cases s.status.c <;> cases s.status.z <;> rfl
  case gt =>
    rw [hselect s _ _ _ _ _ (r1Base_of_unprefixed hnone b), formula]
    rw [bne]
    cases s.status.s == s.status.v <;> cases s.status.z <;> rfl

end Sys2Proof.Machine
end

section
/-! PROOFS. Loads, stores and transfers, from the plan of each (spec/43_memory.md, spec/44_branch.md). -/

namespace Sys2Proof.Machine

open Sys2Proof.Claim

/-! ### Loads and stores of an address that is known -/

section
variable {s : State} {i : Instr} {e : Effect} {a v : Word} {d : Reg}

theorem exec_eq_of_plan (h : s.plan i = .ok e) : exec i s = (s.checkThenPerform e).outcome := by
  rw [exec_eq_plan, h]
  rfl

theorem exec_loadWord_of_plan (h : s.plan i = .ok (.loadWord a d)) (hfits : WordFits s a) :
    exec i s = .next (wrote s d (wordAt s a)) := by
  rw [exec_eq_of_plan h, ← loadWord_eq_checkThenPerform, loadWord_outcome_of_wordFits d hfits]

theorem exec_loadByteZ_of_plan (h : s.plan i = .ok (.loadByteZ a d)) (hpop : s.dataPopulated a = true) :
    exec i s = .next (wrote s d ((s.byteAt a).setWidth 16)) := by
  rw [exec_eq_of_plan h, ← loadByteZ_eq_checkThenPerform, loadByteZ_outcome_of_populated d hpop]

theorem exec_loadByteS_of_plan (h : s.plan i = .ok (.loadByteS a d)) (hpop : s.dataPopulated a = true) :
    exec i s = .next (wrote s d ((s.byteAt a).signExtend 16)) := by
  rw [exec_eq_of_plan h, ← loadByteS_eq_checkThenPerform, loadByteS_outcome_of_populated d hpop]

theorem storedWord_of_plan (h : s.plan i = .ok (.storeWord a d)) (hfits : WordFits s a) :
    StoredWord (exec i s) s a (s.regs.get d) := by
  rw [exec_eq_of_plan h, ← storeWord_eq_checkThenPerform]
  exact storedWord_of_wordFits d hfits

theorem storedByte_of_plan (h : s.plan i = .ok (.storeByte a d)) (hpop : s.dataPopulated a = true) :
    StoredByte (exec i s) s a (s.regs.get d) := by
  rw [exec_eq_of_plan h, ← storeByte_eq_checkThenPerform]
  exact storedByte_of_populated d hpop

end

/-- Settles O24: the plan of each loads from the address of its form. -/
theorem baseOffsetLoads : Obligations.BaseOffsetLoads := fun _ k _ d _ hbase =>
  ⟨exec_loadWord_of_plan (readForm_i1 d hbase k _), fun hpop =>
    ⟨exec_loadByteZ_of_plan (readForm_i1 d hbase k _) hpop,
      exec_loadByteS_of_plan (readForm_i1 d hbase k _) hpop⟩⟩

/-- Settles O25: the plan of each stores to the address of its form. -/
theorem baseOffsetStores : Obligations.BaseOffsetStores := fun _ k _ d _ hbase =>
  ⟨storedWord_of_plan (readForm_i1 d hbase k _), storedByte_of_plan (readForm_i1 d hbase k _)⟩

/-- Settles O27: the plan of each goes to SP plus the immediate. -/
theorem stackRelativeLoadsStores : Obligations.StackRelativeLoadsStores := by
  intro s k d hext
  rw [← imm8z_eq_imm]
  exact ⟨fun hfits => ⟨exec_loadWord_of_plan (readForm_i2 d hext _) hfits,
      storedWord_of_plan (readForm_i2 d hext _) hfits⟩,
    fun hpop => ⟨exec_loadByteZ_of_plan (readForm_i2 d hext _) hpop,
      exec_loadByteS_of_plan (readForm_i2 d hext _) hpop,
      storedByte_of_plan (readForm_i2 d hext _) hpop⟩⟩

/-- Settles O28: the plan of each goes to the sum of the two registers. -/
theorem indexedLoadsStores : Obligations.IndexedLoadsStores := fun _ _ n d _ hbase =>
  ⟨fun hfits => ⟨exec_loadWord_of_plan (readForm_r1 d hbase n _) hfits,
      storedWord_of_plan (readForm_r1 d hbase n _) hfits⟩,
    fun hpop => ⟨exec_loadByteZ_of_plan (readForm_r1 d hbase n _) hpop,
      exec_loadByteS_of_plan (readForm_r1 d hbase n _) hpop,
      storedByte_of_plan (readForm_r1 d hbase n _) hpop⟩⟩

/-! ### The absolute forms (40_prefix.md R126) -/

/-- Under a pending `pfixz_k A[15:5]`, format I1 with A[4:0] in K comes to the address A whatever Rs
holds. -/
theorem readForm_i1_of_absolute {s : State} {a : Word} (h : s.pfx = some ⟨true, a.extractLsb' 5 11⟩)
    (rs rd : RegField) (f : Word → Reg → Effect) :
    s.readForm (.i1 (a.extractLsb' 0 5) rs rd f) = s.readForm (.absolute rd (f a)) := by
  have hrs : s.rsValue rs = .ok 0 := rsValue_eq_ok.2 (.inl ⟨zeroing_eq_true.2 ⟨_, h⟩, rfl⟩)
  have haddress : 0 + s.imm5 (a.extractLsb' 0 5) = a := by
    rw [State.imm5, State.immediate, h]
    exact (zero_add _).trans (imm16_extract a)
  rw [State.readForm, State.readForm, State.operandsI1, hrs, bind_ok, bind_pure_eq_map, haddress]
  cases register rd <;> rfl

/-- Settles O10: the same plan. -/
theorem absoluteFormsAreZeroedCores : Obligations.AbsoluteFormsAreZeroedCores := by
  intro s a rs rd hpfx
  have hexec : ∀ {i j : Instr}, s.plan i = s.plan j → exec i s = exec j s := fun h => by
    rw [exec_eq_plan, exec_eq_plan, h]
  exact ⟨hexec (readForm_i1_of_absolute hpfx rs rd _), hexec (readForm_i1_of_absolute hpfx rs rd _),
    hexec (readForm_i1_of_absolute hpfx rs rd _), hexec (readForm_i1_of_absolute hpfx rs rd _),
    hexec (readForm_i1_of_absolute hpfx rs rd _)⟩

/-! ### A word and its bytes (20_memory.md R54, R55) -/

section
variable {s t : State} {a : Word} (b : Byte)

theorem readForm_absolute (s : State) (d : Reg) (f : Reg → Effect) :
    s.readForm (.absolute (fieldOfReg d) f) = .ok (f d) :=
  map_eq_ok.2 ⟨d, register_fieldOfReg d, rfl⟩

theorem eq_perform_of_plan {i : Instr} {e : Effect} (h : exec i s = .next t) (hplan : s.plan i = .ok e) :
    t = s.perform e := by
  obtain ⟨e', hplan', -, rfl⟩ := exec_eq_next.1 h
  rw [Except.ok.inj (hplan.symm.trans hplan')]

/-- After a byte store at `a` the word there is the new byte and its old neighbour. -/
theorem wordAt_setByte_first :
    wordAt (s.setByte a b) a = joinBytes s.params.byteOrder b (s.byteAt (a + 1)) := by
  rw [← joinBytes_byteAt, State.byteAt_setByte_same, State.byteAt_setByte_ne (ne_add_one a).symm]
  rfl

theorem wordAt_setByte_second :
    wordAt (s.setByte (a + 1) b) a = joinBytes s.params.byteOrder (s.byteAt a) b := by
  rw [← joinBytes_byteAt, State.byteAt_setByte_same, State.byteAt_setByte_ne (ne_add_one a)]
  rfl

end

/-- Settles O29: the state after each store is known, and its bytes with it. -/
theorem mixedWidthAccess : Obligations.MixedWidthAccess := by
  intro s t a d _
  refine ⟨fun hexec => ?word, fun hexec => ?first, fun hexec => ?second⟩
  case word =>
    obtain rfl := eq_perform_of_plan hexec (readForm_absolute s d _)
    have hfirst := byteAt_setWord_first s a (s.regs.get d)
    have hsecond := byteAt_setWord_second s a (s.regs.get d)
    refine ⟨fun h => ?_, fun h => ?_⟩ <;> rw [h] at hfirst hsecond <;> exact ⟨hfirst, hsecond⟩
  case first =>
    obtain rfl := eq_perform_of_plan hexec (readForm_absolute s d _)
    have hword := wordAt_setByte_first (s := s) (a := a) ((s.regs.get d).extractLsb' 0 8)
    refine ⟨fun h => ?_, fun h => ?_⟩ <;> rw [h] at hword <;> exact hword
  case second =>
    obtain rfl := eq_perform_of_plan hexec (readForm_absolute s d _)
    have hword := wordAt_setByte_second (s := s) (a := a) ((s.regs.get d).extractLsb' 0 8)
    refine ⟨fun h => ?_, fun h => ?_⟩ <;> rw [h] at hword <;> exact hword

/-- Settles O31: the plan reads program memory, which refuses an unpopulated address only. -/
theorem programRead : Obligations.ProgramRead := by
  refine fun s r d hnone => ⟨fun hpop => ?populated, fun hunpop => ?unpopulated⟩
  case populated =>
    exact exec_of_plan (i := .movwPr _ _) (e := .readProg _ d) (readForm_r2 d hnone r _) (if_pos hpop)
  case unpopulated =>
    exact exec_eq_refused.2 (.inr ⟨_, readForm_r2 d hnone r _, if_neg (Bool.eq_false_iff.1 hunpop)⟩)

/-! ### Transfers -/

/-- Settles O32: the plan of each is its target, which for a branch not taken is the next word. -/
theorem relativeTransfers : Obligations.RelativeTransfers := by
  intro s cc a hext
  rw [← holds_eq_formula, ← branchTarget_eq_target]
  refine ⟨exec_of_plan (i := .brCk cc a) (readForm_j hext _) rfl,
    exec_of_plan (i := .jmpK a) (readForm_j hext _) rfl, fun hfits => ?_⟩
  rw [exec_eq_of_plan (i := .callK a) (readForm_j hext _), ← callTo_eq_checkThenPerform]
  exact pushed_of_callTo hfits _

/-- A call that completes leaves the word that `ret` needs where it looks for it. -/
theorem exec_ret_of_call {s : State} {x : Word} (h : s.checkAccess (.call x) = .ok ()) :
    ∃ u, exec .ret (s.perform (.call x)) = .next u ∧ u.pc = s.pc + 1 ∧ u.sp = s.sp ∧ u.regs = s.regs ∧
      u.status = s.status := by
  have hfits : WordFits s (s.sp - 2) := checkWord_eq_ok_iff_wordFits.1 h
  exact ⟨_, exec_ret_of_wordFits (s := s.perform (.call x)) rfl hfits, wordAt_setWord s _ _,
    BitVec.sub_add_cancel .., rfl, rfl⟩

/-- Settles O34: either call is the push of pc + 1 and the transfer. -/
theorem callThenReturnResumes : Obligations.CallThenReturnResumes := by
  rintro s t i (⟨a, rfl⟩ | ⟨d, rfl⟩) hexec <;> obtain ⟨e, hplan, hcheck, rfl⟩ := exec_eq_next.1 hexec
  · obtain ⟨-, -, rfl⟩ := map_eq_ok.1 (show s.readForm (.j _) = _ from hplan)
    exact exec_ret_of_call hcheck
  · obtain ⟨d', -, rfl⟩ := map_eq_ok.1 (show s.readForm (.oneReg _ _) = _ from hplan)
    exact exec_ret_of_call hcheck

end Sys2Proof.Machine
end

section
/-! PROOFS. A prefix word and its core word in two steps (spec/40_prefix.md R123, R126, R127), and memories
in canonical form. -/

namespace Sys2Proof.Machine

open Sys2Proof.Claim

/-! ### Two steps -/

section
variable {s : State}

/-- An undisturbed machine runs the word at pc. -/
theorem step_of_undisturbed (hrun : s.halted = false) (h : s.Undisturbed)
    (hpop : s.progPopulated s.pc = true) :
    step s = exec (decode s.pfx (s.progAt s.pc)) s.pastBoundary :=
  step_of_fetch_ok hrun h.acceptsRequest (fetch_of_populated hpop)

/-- The state after a prefix word at `s`, its boundary spent. -/
def State.prefixed (s : State) (x : Pfx) : State :=
  { s.pastBoundary with pfx := some x, pc := s.pc + 1 }

variable (hrun : s.halted = false) (hnone : s.pfx = none) (h : s.Undisturbed)
  (hpop : s.progPopulated s.pc = true)
include hrun hnone h hpop

theorem stepped_pfixK {p : BitVec 11} (hword : s.progAt s.pc = 0b11110#5 ++ p) :
    Stepped s (s.prefixed ⟨false, p⟩) := by
  rw [Stepped, step_of_undisturbed hrun h hpop, hnone, hword, decode_pfixWord]
  exact makePending_outcome_of_none _ hnone

theorem stepped_pfixzK {p : BitVec 11} (hword : s.progAt s.pc = 0b11111#5 ++ p) :
    Stepped s (s.prefixed ⟨true, p⟩) := by
  rw [Stepped, step_of_undisturbed hrun h hpop, hnone, hword, decode_pfixzWord]
  exact makePending_outcome_of_none _ hnone

end

/-- The second step decodes under the prefix. -/
theorem step_prefixed {s : State} (x : Pfx) (hrun : s.halted = false) (h : s.Undisturbed)
    (hpop : s.progPopulated (s.pc + 1) = true) :
    step (s.prefixed x) =
      exec (decode (some x) (s.progAt (s.pc + 1))) (s.prefixed x).pastBoundary :=
  step_of_undisturbed (s := s.prefixed x) hrun h.pastBoundary hpop

theorem pc_add_one_add_one (a : Word) : a + 1 + 1 = a + 2 := BitVec.add_assoc a 1 1

/-- Both boundaries spent, the pc two words on, a register written: the state after the second word. -/
theorem wrote_prefixed {s : State} (hnone : s.pfx = none) (x : Pfx) (d : Reg) (v : Word) :
    wrote (s.prefixed x).pastBoundary d v =
      { s with regs := s.regs.set d v, pc := s.pc + 2, requests := s.requests.tail.tail } := by
  rw [hnone, ← pc_add_one_add_one]
  rfl

/-- The prefix with V[15:5] and any field whose low bits are V[4:0] make V (40_prefix.md R122). -/
theorem extract_append_setWidth_append {n : Nat} (v : Word) (high : BitVec n) :
    v.extractLsb' 5 11 ++ (high ++ v.extractLsb' 0 5).setWidth 5 = v := by
  rw [BitVec.setWidth_append_eq_right, BitVec.extractLsb'_append_extractLsb'_eq_extractLsb' (by omega)]
  simp

/-- Settles O8: the prefix word leaves V[15:5] pending, the move composes the immediate V. -/
theorem longMoveTakesTwoSteps : Obligations.LongMoveTakesTwoSteps := by
  intro s v high3 d hrun hnone hund hpop hpop' hfirst hsecond
  have hdecode : decode (some ⟨false, v.extractLsb' 5 11⟩) (s.progAt (s.pc + 1)) =
      .movKr (high3 ++ v.extractLsb' 0 5) (fieldOfReg d) := by
    have hfield : 0b10000#5 ++ high3 ++ v.extractLsb' 0 5 = 0b10000#5 ++ (high3 ++ v.extractLsb' 0 5) :=
      BitVec.append_assoc
    rw [hsecond, hfield]
    exact decode_movKrWord (high3 ++ v.extractLsb' 0 5) (fieldOfReg d)
  have hext : Extendable (s.prefixed ⟨false, v.extractLsb' 5 11⟩).pastBoundary := fun p hp => by cases hp
  obtain ⟨-, hmove, -⟩ := moveImmediate
  refine ⟨_, stepped_pfixK hrun hnone hund hpop hfirst, ?_⟩
  rw [Stepped, step_prefixed _ hrun hund hpop', hdecode, hmove _ _ _ hext,
    ← wrote_prefixed hnone]
  exact congrArg (fun v => Host.Outcome.next (wrote _ d v)) (extract_append_setWidth_append v high3)

/-- Settles O9: the prefix word leaves A[15:5] pending, under which the core word is the absolute load. -/
theorem absoluteLoadTakesTwoSteps : Obligations.AbsoluteLoadTakesTwoSteps := by
  intro s a rs d hrun hnone hund hpop hpop' hfirst hsecond hfits
  have hdecode : decode (some ⟨true, a.extractLsb' 5 11⟩) (s.progAt (s.pc + 1)) =
      .movwAr a (fieldOfReg d) := by
    rw [hsecond]
    exact decode_absoluteWord _ a rs _ rfl decodeAbsolute_eq_movwAr
  refine ⟨_, stepped_pfixzK hrun hnone hund hpop hfirst, ?_⟩
  rw [Stepped, step_prefixed _ hrun hund hpop', hdecode, ← wrote_prefixed hnone ⟨true, _⟩]
  exact exec_loadWord_of_plan (readForm_absolute _ d _) hfits

/-! ### Memories in canonical form -/

section
variable {w : Nat}

theorem Mem.read?_head {k : Nat} {x : BitVec w} {m : Mem w} : Mem.read? ((k, x) :: m) k = some x :=
  if_pos rfl

/-- The first address of a canonical memory is the least that it lists. -/
theorem Mem.read?_eq_none_of_wfFrom {k a : Nat} {x : BitVec w} {m : Mem w} (hm : Mem.wfFrom (k + 1) m = true)
    (h : a < k) : Mem.read? ((k, x) :: m) a = none := by
  rw [Mem.read?_cons, if_neg (by omega), Mem.read?_of_lt hm (by omega)]

/-- The first cells agree, because each is the least address listed; what they list above agrees then. -/
theorem Mem.eq_of_read?_eq {lo : Nat} {m n : Mem w} (hm : Mem.wfFrom lo m = true)
    (hn : Mem.wfFrom lo n = true) (h : ∀ a, m.read? a = n.read? a) : m = n := by
  induction m generalizing lo n with
  | nil =>
    cases n with
    | nil => rfl
    | cons c n => exact absurd ((h c.1).trans Mem.read?_head) nofun
  | cons c m ih =>
    obtain ⟨k, x⟩ := c
    cases n with
    | nil => exact absurd ((h k).symm.trans Mem.read?_head) nofun
    | cons c' n =>
      obtain ⟨k', x'⟩ := c'
      obtain ⟨-, -, hm⟩ := Mem.wfFrom_cons.1 hm
      obtain ⟨-, -, hn⟩ := Mem.wfFrom_cons.1 hn
      obtain hlt | rfl | hgt := Nat.lt_trichotomy k k'
      · exact absurd (Mem.read?_head.symm.trans ((h k).trans (Mem.read?_eq_none_of_wfFrom hn hlt))) nofun
      · have hx : x = x' := Option.some.inj (Mem.read?_head.symm.trans ((h k).trans Mem.read?_head))
        have htail : ∀ a, Mem.read? m a = Mem.read? n a := by
          intro a
          by_cases ha : k = a
          · rw [Mem.read?_of_lt hm (by omega), Mem.read?_of_lt hn (by omega)]
          · simpa only [Mem.read?_cons, if_neg ha] using h a
        rw [hx, ih hm hn htail]
      · exact absurd (Mem.read?_head.symm.trans ((h k').symm.trans
          (Mem.read?_eq_none_of_wfFrom hm hgt))) nofun

end

/-- Settles O50, by induction on the first list. -/
theorem canonicalMemoriesEqual : Obligations.CanonicalMemoriesEqual := fun _ _ _ => Mem.eq_of_read?_eq

end Sys2Proof.Machine
end

section
/-! PROOFS. What no instruction reads: AZ, and of S and V all but whether they differ (spec/10_state.md R32).
A plan is the same for two such statuses, and an effect takes alike statuses to alike ones. -/

namespace Sys2Proof.Machine

open Sys2Proof.Claim

/-- Two statuses that no condition and no carry tells apart: `Alike` of the states that hold them
(`alike_iff`). -/
def StatusAlike (x y : Status) : Prop :=
  ∃ s v az, y = { x with s := s, v := v, az := az } ∧ (x.s == x.v) = (s == v)

theorem alike_iff {s t : State} : Alike s t ↔ ∃ y, t = s.setStatus y ∧ StatusAlike s.status y := by
  constructor
  · rintro ⟨ht, hsv⟩
    exact ⟨_, ht, _, _, _, rfl, hsv⟩
  · rintro ⟨_, rfl, _, _, _, rfl, hsv⟩
    exact ⟨rfl, hsv⟩

section
variable {x y : Status}

theorem StatusAlike.ac_eq (h : StatusAlike x y) : y.ac = x.ac := by
  obtain ⟨_, _, _, rfl, -⟩ := h
  rfl

/-- A condition reads S and V only by whether they are equal. -/
theorem StatusAlike.holds_eq (h : StatusAlike x y) (cc : Cond) : y.holds cc = x.holds cc := by
  obtain ⟨_, _, _, rfl, hsv⟩ := h
  cases cc with
  | eq | ne | uge | ult | ugt => rfl
  | ge => exact hsv.symm
  | lt => exact congrArg (! ·) hsv.symm
  | gt => exact congrArg (· && !x.z) hsv.symm

end

/-- The status after an effect, from the one before and the draw count. -/
def Effect.statusAfter (draws : Nat) (x : Status) : Effect → Status
  | .writeArith _ o => (x.setSRArith o).setAR o
  | .writeLogic _ v => x.setSRLogic v (Config.drawC draws) (Config.drawV draws)
  | .compare o => x.setSRArith o
  | .setI b => { x with i := b }
  | _ => x

theorem StatusAlike.statusAfter {x y : Status} (h : StatusAlike x y) (draws : Nat) (e : Effect) :
    StatusAlike (e.statusAfter draws x) (e.statusAfter draws y) := by
  obtain ⟨_, _, _, rfl, hsv⟩ := h
  cases e with
  | writeArith | writeLogic | compare => exact ⟨_, _, _, rfl, rfl⟩
  | _ => exact ⟨_, _, _, rfl, hsv⟩

section
variable (s : State) (y : Status)

theorem perform_status (e : Effect) : (s.perform e).status = e.statusAfter s.draws s.status := by
  cases e <;> rfl

/-- The flags before an effect reach only the flags after it. -/
theorem perform_setStatus (e : Effect) :
    (s.setStatus y).perform e = (s.perform e).setStatus (e.statusAfter s.draws y) := by
  cases e <;> rfl

theorem checkAccess_setStatus (e : Effect) : (s.setStatus y).checkAccess e = s.checkAccess e := by
  cases e <;> rfl

theorem readForm_setStatus (F : Form) : (s.setStatus y).readForm F = s.readForm F := by
  cases F <;> rfl

end

section
variable {s t : State} {y : Status}

/-- The carry and the conditions are all that an instruction takes from the flags. -/
theorem form_setStatus (h : StatusAlike s.status y) (i : Instr) : (s.setStatus y).form i = s.form i := by
  cases i
  case adcRrr rn rs rd =>
    exact congrArg (fun ac => Form.r1 rn rs rd fun v w d => .writeArith d (addC v w ac)) h.ac_eq
  case subcRrr rn rs rd =>
    exact congrArg (fun ac => Form.r1 rn rs rd fun v w d => .writeArith d (subBorrowC v w ac)) h.ac_eq
  case brCk cc a =>
    exact congrArg (fun c => Form.j (.goto (if c then s.branchTarget a else s.pc + 1))) (h.holds_eq cc)
  case selCrrr cc rn rs rd =>
    exact congrArg (fun c => Form.r1 rn rs rd fun v w d => .write d (if c then v else w)) (h.holds_eq cc)
  case setCr cc rd =>
    exact congrArg (fun c => Form.oneReg rd fun d => .write d (if c then 1 else 0)) (h.holds_eq cc)
  all_goals rfl

theorem plan_setStatus (h : StatusAlike s.status y) (i : Instr) : (s.setStatus y).plan i = s.plan i := by
  rw [State.plan, form_setStatus h, readForm_setStatus, State.plan]

theorem alike_perform_setStatus (h : StatusAlike s.status y) (e : Effect) :
    Alike (s.perform e) ((s.setStatus y).perform e) := by
  refine alike_iff.2 ⟨_, perform_setStatus s y e, ?_⟩
  rw [perform_status]
  exact h.statusAfter s.draws e

theorem alikeOutcomes_exec (h : Alike s t) (i : Instr) : AlikeOutcomes (exec i s) (exec i t) := by
  obtain ⟨y, rfl, hy⟩ := alike_iff.1 h
  rw [exec_eq_plan, exec_eq_plan, plan_setStatus hy]
  cases s.plan i with
  | error r => exact rfl
  | ok e =>
    rw [bind_ok, bind_ok, State.checkThenPerform, State.checkThenPerform, checkAccess_setStatus]
    cases s.checkAccess e with
    | error r => exact rfl
    | ok u => exact alike_perform_setStatus hy e

theorem alike_pastBoundary (h : Alike s t) : Alike s.pastBoundary t.pastBoundary := by
  obtain ⟨y, rfl, hy⟩ := alike_iff.1 h
  exact alike_iff.2 ⟨y, rfl, hy⟩

/-- What a boundary and a fetch read is the same in alike states. -/
theorem boundary_eq_of_alike (h : Alike s t) :
    t.halted = s.halted ∧ t.acceptsRequest = s.acceptsRequest ∧ t.fetch = s.fetch := by
  obtain ⟨_, rfl, _, _, _, rfl, -⟩ := alike_iff.1 h
  exact ⟨rfl, rfl, rfl⟩

theorem alikeOutcomes_step (h : Alike s t) : AlikeOutcomes (step s) (step t) := by
  obtain ⟨hhalted, haccepts, hfetch⟩ := boundary_eq_of_alike h
  obtain hrun | hrun := Bool.eq_false_or_eq_true s.halted
  · rw [step_of_halted hrun, step_of_halted (hhalted.trans hrun)]
    exact rfl
  obtain hacc | hacc := Bool.eq_false_or_eq_true s.acceptsRequest
  · rw [step_of_acceptsRequest hacc, step_of_acceptsRequest (haccepts.trans hacc)]
    exact rfl
  cases hword : s.fetch with
  | error r =>
    rw [step_of_fetch_error hrun hacc hword,
      step_of_fetch_error (hhalted.trans hrun) (haccepts.trans hacc) (hfetch.trans hword)]
    exact rfl
  | ok i =>
    rw [step_of_fetch_ok hrun hacc hword,
      step_of_fetch_ok (hhalted.trans hrun) (haccepts.trans hacc) (hfetch.trans hword)]
    exact alikeOutcomes_exec (alike_pastBoundary h) i

end

/-- Settles O59: neither the plan nor the access of an instruction tells alike states apart, nor does the
boundary. -/
theorem flagsIndistinguishable : Obligations.FlagsIndistinguishable := fun _ _ h =>
  ⟨alikeOutcomes_exec h, alikeOutcomes_step h⟩

end Sys2Proof.Machine
end
